-- ==== Sys2Proof/Word.lean ====
section
/-! DEFINITION. The word types of the block: 32-bit registers and command words (R23, R100), 16-bit coefficients (R46)
and bytes of destination memory (R70, R77). Their arithmetic is Lean's own on `BitVec`. -/

namespace Sys2Proof

/-- A 32-bit register, a command word, or a destination address held in a register (R23, R70). -/
abbrev Word := BitVec 32

/-- A 16-bit field: a coefficient (R46), WIDTH or HEIGHT (R29), one half of CTX_PADPOS (R40). -/
abbrev Half := BitVec 16

/-- One byte of destination memory, the only single-copy-atomic unit (R77), and one sample (R203). -/
abbrev Byte := BitVec 8

/-- A byte of destination memory under its address. The same type as the host's `Host.Cell`. -/
abbrev ByteAt := Nat × Byte

end Sys2Proof
end

