-- ==== Sys2Proof/Syntax.lean ====
section
/-! DEFINITION. The commands (R103), one constructor for each row of the opcode table, and the one word format CMDW (R100).
Host bus operations are not commands and have no encoding (R101); they are inputs of the machine (Machine/State.lean). -/

namespace Sys2Proof

/-- A command with its decoded operands (R102, R103). -/
inductive Instr where
  | nop                                      -- OP 0x00
  | frameStart                               -- OP 0x01
  | mbDecode (vb : Fin 4) (field : Bool)     -- OP 0x02: context index, field-mode flag
  | mbAbort (vb : Fin 4)                     -- OP 0x03: context index
  | frameEnd                                 -- OP 0x04
  deriving DecidableEq, Repr

/-- The fields of a command word (R100). -/
structure Cmdw where
  op : BitVec 8
  vb : BitVec 2
  field : BitVec 1
  rsv : BitVec 21
  deriving DecidableEq, Repr

/-- Why a word is no command (R104), by name. The block answers every one of the first four with the error ILLEGAL_CMD. -/
inductive Illegal where
  | reservedOp      -- OP in 0x05..0xFF
  | nonzeroRsv      -- a nonzero bit in RSV
  | nonzeroVb       -- a nonzero VB where the row of R103 says 0
  | nonzeroField    -- FIELD = 1 where the row of R103 says 0
  | shortWord       -- fewer than four bytes: no whole command word (R101)
  deriving DecidableEq, Repr

/-- The opcode of each command (R103). -/
def Instr.op : Instr → BitVec 8
  | .nop => 0x00
  | .frameStart => 0x01
  | .mbDecode _ _ => 0x02
  | .mbAbort _ => 0x03
  | .frameEnd => 0x04

/-- The CMDW fields of a command: an operand the command does not have is 0 (R103). -/
def Instr.cmdw : Instr → Cmdw
  | .nop => ⟨0x00, 0, 0, 0⟩
  | .frameStart => ⟨0x01, 0, 0, 0⟩
  | .mbDecode vb field => ⟨0x02, BitVec.ofNat 2 vb.val, BitVec.ofBool field, 0⟩
  | .mbAbort vb => ⟨0x03, BitVec.ofNat 2 vb.val, 0, 0⟩
  | .frameEnd => ⟨0x04, 0, 0, 0⟩

end Sys2Proof
end

