-- ==== Sys2Proof/WellFormed.lean ====
section
/-! DEFINITION. Which CMDW fields make a command: the must-be-zero fields of R103 and the reserved opcodes of R104. The
operands of `Instr` are well-formed by their types (a context index is a `Fin 4`). -/

namespace Sys2Proof

/-- The row of R103 for an opcode allows any VB. -/
def Cmdw.vbIsFree (c : Cmdw) : Bool := c.op = 0x02 || c.op = 0x03

/-- The row of R103 for an opcode allows any FIELD. -/
def Cmdw.fieldIsFree (c : Cmdw) : Bool := c.op = 0x02

/-- The first thing wrong with the fields of a word (R104), or `none` for a legal word. -/
def Cmdw.illegal? (c : Cmdw) : Option Illegal :=
  if 0x04 < c.op then some .reservedOp
  else if c.rsv ≠ 0 then some .nonzeroRsv
  else if c.vb ≠ 0 ∧ c.vbIsFree = false then some .nonzeroVb
  else if c.field ≠ 0 ∧ c.fieldIsFree = false then some .nonzeroField
  else none

/-- The fields select a row of R103. -/
def Cmdw.WellFormed (c : Cmdw) : Bool := c.illegal?.isNone

/-- A command is well-formed when its fields are. -/
def Instr.WellFormed (i : Instr) : Bool := i.cmdw.WellFormed

end Sys2Proof
end

