-- ==== Sys2Proof/Decode.lean ====
section
/-! DEFINITION. Decoding a command word (R100 to R105), total on every word and every list of bytes, and the encoder of
R106. -/

namespace Sys2Proof

/-- Pull the fields out of a word: OP [7:0], VB [9:8], FIELD [10], RSV [31:11] (R100, R102). -/
def Cmdw.ofWord (w : Word) : Cmdw where
  op := w.extractLsb' 0 8
  vb := w.extractLsb' 8 2
  field := w.extractLsb' 10 1
  rsv := w.extractLsb' 11 21

/-- Put the fields back into a word, `{RSV, FIELD, VB, OP}` (R100). -/
def Cmdw.toWord (c : Cmdw) : Word := c.rsv ++ c.field ++ c.vb ++ c.op

/-- The command that legal fields select (R103, R139). -/
def Cmdw.instr (c : Cmdw) : Instr :=
  if c.op = 0x00 then .nop
  else if c.op = 0x01 then .frameStart
  else if c.op = 0x02 then .mbDecode c.vb.toFin (c.field == 1)
  else if c.op = 0x03 then .mbAbort c.vb.toFin
  else .frameEnd

/-- The command a word stands for, or why it is illegal (R102 to R105). -/
def decode (w : Word) : Except Illegal Instr :=
  match (Cmdw.ofWord w).illegal? with
  | some why => .error why
  | none => .ok (Cmdw.ofWord w).instr

/-- `enc(op, vb, field) = op | (vb << 8) | (field << 10)` (R106). -/
def enc (op vb field : Word) : Word := op ||| (vb <<< 8) ||| (field <<< 10)

/-- The command word of a command (R106). -/
def encode : Instr → Word
  | .nop => enc 0x00 0 0
  | .frameStart => enc 0x01 0 0
  | .mbDecode vb field => enc 0x02 (BitVec.ofNat 32 vb.val) (if field then 1 else 0)
  | .mbAbort vb => enc 0x03 (BitVec.ofNat 32 vb.val) 0
  | .frameEnd => enc 0x04 0 0

/-- The four byte lanes of a word, lane `i` carrying bits `[8i+7:8i]` (R73). -/
def wordBytes (w : Word) : List Byte :=
  [w.extractLsb' 0 8, w.extractLsb' 8 8, w.extractLsb' 16 8, w.extractLsb' 24 8]

/-- The word of four byte lanes (R73). -/
def bytesWord (b0 b1 b2 b3 : Byte) : Word := b3 ++ b2 ++ b1 ++ b0

/-- Decode the first command of a list of bytes and answer the bytes after it: every command is exactly one word (R101). -/
def decodeBytes : List Byte → Except Illegal (Instr × List Byte)
  | b0 :: b1 :: b2 :: b3 :: rest =>
    match decode (bytesWord b0 b1 b2 b3) with
    | .ok i => .ok (i, rest)
    | .error why => .error why
  | _ => .error .shortWord

/-- One row of the match/mask table (R105). -/
structure OpcodeRow where
  mnemonic : String
  pattern : Word
  mask : Word
  deriving DecidableEq, Repr

/-- The match/mask table (R105). -/
def opcodeRows : List OpcodeRow :=
  [⟨"NOP", 0x00000000, 0xFFFFFFFF⟩,
   ⟨"FRAME_START", 0x00000001, 0xFFFFFFFF⟩,
   ⟨"MB_DECODE", 0x00000002, 0xFFFFF8FF⟩,
   ⟨"MB_ABORT", 0x00000003, 0xFFFFFCFF⟩,
   ⟨"FRAME_END", 0x00000004, 0xFFFFFFFF⟩]

/-- A word selects a row when `(w & mask) == match` (R105). -/
def OpcodeRow.selects (r : OpcodeRow) (w : Word) : Bool := w &&& r.mask == r.pattern

/-- The mnemonic of a command (R103). -/
def Instr.mnemonic : Instr → String
  | .nop => "NOP"
  | .frameStart => "FRAME_START"
  | .mbDecode _ _ => "MB_DECODE"
  | .mbAbort _ => "MB_ABORT"
  | .frameEnd => "FRAME_END"

/-- The instruction the decoder reads from the word whose low `nbits` bits are `w`, laid out in the window's byte order
(R73); every bit above `nbits` is 0. -/
def decodeTableWord (nbits w : Nat) : Option Instr :=
  match decodeBytes (wordBytes (BitVec.ofNat 32 (w % 2 ^ nbits))) with
  | .ok (i, _) => some i
  | .error _ => none

end Sys2Proof
end

