-- ==== Sys2Proof/Config.lean ====
section
/-! DEFINITION. The implementation parameters of R8, and the free values the spec leaves open. An `opaque` constant has no
body: no proof can know its value, so what is proved holds for every value of it. -/

namespace Sys2Proof

/-- MMIO_SIZE: the register window is 0x800 bytes (R8, R23). -/
def Config.mmioSize : Nat := 0x800

/-- COEF_N: entries of the coefficient RAM, 8 blocks of 64 (R8, R46). -/
def Config.coefN : Nat := 512

/-- 2^ADDR_W, the number of byte addresses of destination memory (R8, R70). -/
def Config.addrSpace : Nat := 2 ^ 32

/-- RGB_BIAS: the constant added before the `>> 10` of the colour matrix, 0 for this hardware (R8, R244). -/
def Config.rgbBias : Int := 0

/-- MMIO_BASE, the address of the register window on the host bus: OPEN (R8, R79). -/
opaque Config.mmioBase : Nat

/-- IMPL_ID, the value the ID register reads: OPEN (R8, R24). -/
opaque Config.implId : Word

/-- `idct`, the 8×8 inverse transform: OPEN, a total function of its 64 inputs and nothing else (R8, R203).
Input index `8*q + p`, output index `8*r + c`. -/
opaque Config.idct : (Fin 64 → Int) → (Fin 64 → Fin 256)

/-- A free bit for the `n`-th open choice between an old byte and a command's byte (R85, R342; U13, U14). -/
opaque Config.freeBit : Nat → Bool

/-- A free 16-bit value for the `n`-th draw of what an unwritten coefficient holds (R54, R131; U1, U2). -/
opaque Config.freeHalf : Nat → Half

/-- What destination memory held at an address before the model's run began; the caller owns it and the spec gives it no
value (R72). One fixed unknown byte for each address. -/
opaque Config.initialByte : Nat → Byte

end Sys2Proof
end

