-- ==== Sys2Proof/Machine/State.lean ====
section
/-! DEFINITION. Everything the spec gives the machine, as plain data: the block's architectural state (R22), destination
memory (R72), which destination bytes are ordinary memory (R72), and what the model itself adds to run two agents with one
deterministic step (the inputs, the last answer on the host bus, the bytes the host has raced for, the draw counter). -/

namespace Sys2Proof.Machine

/-- FRAME_MODE.SCAN (R30, R107). -/
inductive Scan where
  | progressive   -- 0
  | interlaced    -- 1
  deriving DecidableEq, Repr

/-- FRAME_MODE.FMT (R30, R107). -/
inductive Fmt where
  | yuv422        -- 0
  | xrgb          -- 1
  deriving DecidableEq, Repr

/-- CTX_STATE (R31, R107). -/
inductive CtxState where
  | idle          -- 0: not part of the latched frame
  | run           -- 1: has macroblocks left to place
  | done          -- 2: has placed all of them
  | failed        -- 3: aborted by MB_ABORT
  deriving DecidableEq, Repr

/-- ERR_INFO.CODE (R300). The reserved codes 0x0A..0xFF are never produced, so they have no constructor. -/
inductive ErrCode where
  | none | illegalCmd | geometry | resource | noFrame | vbRange | vbFailed | vbDone | bitstream | incomplete
  deriving DecidableEq, Repr

/-- One video-block context (R31, R38 to R40). -/
structure Context where
  /-- CTX_STATE[v] (R31). -/
  state : CtxState
  /-- CTX_MBIDX[v]: macroblocks placed, the index of the next one (R38). -/
  mbIdx : Word
  /-- CTX_MBCOUNT[v]: macroblocks the video block owns (R39). -/
  mbCount : Word
  /-- CTX_PADPOS[v].PADX (R40). -/
  padX : Half
  /-- CTX_PADPOS[v].PADY (R40). -/
  padY : Half
  deriving DecidableEq, Repr

/-- A context that is not part of a latched frame (R51). -/
def Context.unused : Context := ⟨.idle, 0, 0, 0, 0⟩

/-- The configuration registers FRAME_START reads (R29, R30, R32 to R34). -/
structure FrameConfig where
  /-- FRAME_SIZE (R29). -/
  frameSize : Word
  /-- FRAME_MODE[1:0] (R30); the bits above are reserved and read 0. -/
  frameMode : BitVec 2
  /-- DEST_BASE (R32). -/
  destBase : Word
  /-- DEST_STRIDE (R33). -/
  destStride : Word
  /-- DEST_SIZE (R34). -/
  destSize : Word
  deriving DecidableEq, Repr

/-- The configuration registers after reset (R52). -/
def FrameConfig.zero : FrameConfig := ⟨0, 0, 0, 0, 0⟩

/-- The latched frame: F_W, F_H, F_SCAN, F_FMT, F_BASE and F_STRIDE (R47). -/
structure Latched where
  w : Half
  h : Half
  scan : Scan
  fmt : Fmt
  base : Word
  stride : Word
  deriving DecidableEq, Repr

/-- F_W, F_H, F_SCAN, F_FMT, F_BASE and F_STRIDE = 0 (R51). -/
def Latched.zero : Latched := ⟨0, 0, .progressive, .yuv422, 0, 0⟩

/-- The derived geometry G (R47), defined by R170 to R173. -/
structure Geom where
  /-- VBC, GEOM_VBC: video blocks of the frame, 2 or 4, and 0 when no geometry is latched. -/
  vbc : Nat
  /-- PER, GEOM_PERLINE: macroblocks in a line. -/
  per : Nat
  /-- TOTAL, GEOM_TOTAL: macroblocks of the frame. -/
  total : Nat
  /-- H16: full 16-line macroblock rows. -/
  h16 : Nat
  /-- STRIP: the frame ends in a row of 32×8 macroblocks. -/
  strip : Bool
  /-- PS, GEOM_PADY: paddingStartY in macroblock rows. -/
  ps : Nat
  /-- NORMAL: normal-region macroblocks of every video block. -/
  normal : Nat
  /-- PADFULL: 16×16 macroblocks of the padding region. -/
  padFull : Nat
  /-- P[v]: where video block `v`'s padding run starts. -/
  p : Vector Nat 4
  deriving DecidableEq, Repr

/-- No frame geometry (R51). -/
def Geom.none : Geom := ⟨0, 0, 0, 0, false, 0, 0, 0, Vector.replicate 4 0⟩

/-- One entry of the coefficient RAM (R46). The mark is the spec's own: "the model must mark every COEF entry as
unwritten" after power-on (R54). -/
inductive CoefEntry where
  | unwritten
  | written (v : Half)
  deriving DecidableEq, Repr

/-- The width of an access to the register window; only `word` is taken (R75, R132). -/
inductive AccessWidth where
  | byte | half | word | double
  deriving DecidableEq, Repr

/-- What the host can do (R70, R130): access the register window at a byte offset from MMIO_BASE, or load and store bytes
of destination memory. -/
inductive HostOp where
  /-- A read of the register window; `RD32(o)` is `read .word o` (R131). -/
  | read (width : AccessWidth) (offset : Nat)
  /-- A write of the register window; `WR32(o, d)` is `write .word o d`. -/
  | write (width : AccessWidth) (offset : Nat) (d : Word)
  /-- A host load of one destination byte (R70, R85). -/
  | load (a : Word)
  /-- A host store of one destination byte (R70, R85). -/
  | store (a : Word) (v : Byte)
  deriving DecidableEq, Repr

/-- Whose turn it is. Every interleaving of the agents (R130) is some list of inputs. -/
inductive Input where
  /-- One atomic host operation (R130). -/
  | host (op : HostOp)
  /-- The datapath may take its completion step (R138). -/
  | datapath
  /-- The platform powers the block up (R340). -/
  | powerOn
  deriving DecidableEq, Repr

/-- The last answer the host got on its bus. -/
inductive Response where
  | none
  | word (v : Word)
  | byte (v : Byte)
  deriving DecidableEq, Repr

/-- A run of addresses that the platform backs with ordinary writable memory (R72). -/
structure Region where
  base : Nat
  size : Nat
  deriving DecidableEq, Repr

/-- The machine. -/
structure State where
  /-- CTRL.AUTO_CLEAR (R25). -/
  autoClear : Bool
  /-- INT_STATUS[2:0]: CMD_DONE, ERR, OVR (R27). -/
  intStatus : BitVec 3
  /-- INT_ENABLE[2:0] (R28). -/
  intEnable : BitVec 3
  /-- FRAME_SIZE, FRAME_MODE, DEST_BASE, DEST_STRIDE, DEST_SIZE (R29 to R34). -/
  cfg : FrameConfig
  /-- ERR_INFO.CODE (R36). -/
  errCode : ErrCode
  /-- ERR_INFO.VB (R36). -/
  errVb : BitVec 2
  /-- ERR_MB (R37). -/
  errMb : Word
  /-- BUSY (R48). -/
  busy : Bool
  /-- CMDWORD (R48). -/
  cmdWord : Word
  /-- The configuration registers as they stood when the command word was accepted: a later write never affects a command
  already accepted (R140). The model's own field (log 2). -/
  cmdCfg : FrameConfig
  /-- F_ACTIVE (R47). -/
  fActive : Bool
  /-- F_W, F_H, F_SCAN, F_FMT, F_BASE, F_STRIDE (R47). -/
  frame : Latched
  /-- The derived geometry G and the GEOM registers (R41 to R45, R47). -/
  geom : Geom
  /-- The four contexts (R31). -/
  ctx : Vector Context 4
  /-- COEF[0..511] (R46). -/
  coef : Vector CoefEntry 512
  /-- Destination memory: the bytes written since the model's run began, addresses strictly rising (R72). -/
  mem : List Host.Cell
  /-- Which addresses the platform backs with ordinary writable memory (R72). No step changes it. -/
  destMap : List Region
  /-- The steps to come, first one first (R130). The model's own field (log 1). -/
  inputs : List Input
  /-- The answer to the host's last read or load. The model's own field (log 1). -/
  response : Response
  /-- Addresses the host stored to while the command in flight was in flight (R85). The model's own field (log 6). -/
  raced : List Nat
  /-- How many free values have been drawn. The model's own field (log 4). -/
  draws : Nat
  deriving DecidableEq, Repr

/-- Why the model stops (R310). -/
inductive Fault where
  /-- An MB_DECODE that passes its checks reads a coefficient unwritten since power-on (R54, R310). Raised by the meaning
  of MB_DECODE. Safe: the chip goes on with whatever the RAM holds. -/
  | unwrittenCoefficient
  /-- A register-window access that is not 32 bits wide or not 4-byte aligned (R132, R310). Raised by the host access. Safe:
  the host program gets a bus error and the block does not change. -/
  | mmioBusError (offset : Nat)
  /-- The datapath writes a byte that the platform does not back with ordinary writable memory (R72, R310). Raised by the
  meaning of MB_DECODE and by a reset that aborts one. Safe: the spec gives no behaviour. -/
  | destNotMemory (a : Nat)
  deriving DecidableEq, Repr

/-- What the model does not answer. -/
inductive Refusal where
  /-- An instruction without a meaning, raised by its arm of exec. Safe. -/
  | notModelled (mnemonic : String)
  /-- A host access at an offset of 0x800 or more: this block does not decode it and the platform decides (R71). Raised by
  the host access. Safe. -/
  | outsideWindow (offset : Nat)
  /-- A host load or store of an address that is not ordinary memory: the platform decides what answers there (R72). Raised
  by the host access. Safe. -/
  | hostNotMemory (a : Nat)
  deriving DecidableEq, Repr

/-- The machine right after a power-on reset (R52, R340). Memory lists nothing, every destination address is ordinary memory
(log 5), and no input is waiting (log 1). -/
def State.reset : State where
  autoClear := false
  intStatus := 0
  intEnable := 0
  cfg := .zero
  errCode := .none
  errVb := 0
  errMb := 0
  busy := false
  cmdWord := 0
  cmdCfg := .zero
  fActive := false
  frame := .zero
  geom := .none
  ctx := Vector.replicate 4 .unused
  coef := Vector.replicate 512 .unwritten
  mem := []
  destMap := [⟨0, 2 ^ 32⟩]
  inputs := []
  response := .none
  raced := []
  draws := 0

end Sys2Proof.Machine
end

