-- ==== Sys2Proof/Machine/Ops.lean ====
section
/-! DEFINITION. The shared operations: reading and writing destination memory, recording an error (the block's only kind of
exception, R303, R305, R312), accepting and completing a command (R134, R138), and the two resets (R340, R341). -/

namespace Sys2Proof.Machine

/-- What a step or a meaning answers. -/
abbrev Outcome := Host.Outcome State Fault Refusal

/-- Go on with the next state of an outcome; a fault or a refusal stays. -/
def Outcome.onNext (o : Outcome) (f : State → Outcome) : Outcome :=
  match o with
  | .next s => f s
  | .fault r => .fault r
  | .refused r => .refused r

/-! ## Destination memory -/

/-- A memory in canonical form: addresses strictly rising and inside the 32-bit address space (R70). An unlisted address has
no value of its own, so no entry can equal it. -/
def Memory.wf : List Host.Cell → Bool
  | [] => true
  | [c] => c.1 < Config.addrSpace
  | c :: d :: m => c.1 < d.1 && Memory.wf (d :: m)

/-- The byte listed at an address, or `none` where nothing was written since the run began. -/
def Memory.read (m : List Host.Cell) (a : Nat) : Option Byte :=
  match m with
  | [] => none
  | c :: m => if c.1 = a then some c.2 else Memory.read m a

/-- `MemWrite(a, 1, v)` (R11, R74), keeping the canonical form. -/
def Memory.write (m : List Host.Cell) (a : Nat) (v : Byte) : List Host.Cell :=
  match m with
  | [] => [(a, v)]
  | c :: m =>
    if a < c.1 then (a, v) :: c :: m
    else if a = c.1 then (a, v) :: m
    else c :: Memory.write m a v

/-- Write a list of bytes, first one first. -/
def Memory.writeAll (m : List Host.Cell) (ws : List ByteAt) : List Host.Cell :=
  ws.foldl (fun m w => Memory.write m w.1 w.2) m

/-- The byte a host load finds: an unlisted address holds what the caller's buffer held before the run (R72). -/
def Memory.byte (m : List Host.Cell) (a : Nat) : Byte := (Memory.read m a).getD (Config.initialByte a)

/-- The platform backs the byte with ordinary writable memory (R72); nothing beyond 2^32 exists (R70). -/
def State.isMemory (s : State) (a : Nat) : Bool :=
  a < Config.addrSpace && s.destMap.any (fun r => r.base ≤ a && a < r.base + r.size)

/-- The platform backs every byte of a list of writes. -/
def State.allMemory (s : State) (ws : List ByteAt) : Bool := ws.all (fun w => s.isMemory w.1)

/-- Which of a completed command's writes land: a byte that the host stored to while the command was in flight ends with the
host's value or the command's, and a free bit says which (R85). All land when the host raced for none. -/
def State.landing (s : State) (ws : List ByteAt) : List ByteAt :=
  if s.raced.isEmpty then ws
  else (ws.zipIdx.filter (fun w => !s.raced.contains w.1.1 || Config.freeBit (s.draws + w.2))).map (·.1)

/-- Which of an aborted command's writes land: each byte ends old or new, and a free bit says which (R342). -/
def State.landingAborted (s : State) (ws : List ByteAt) : List ByteAt :=
  (ws.zipIdx.filter (fun w => Config.freeBit (s.draws + w.2))).map (·.1)

/-- Put bytes into destination memory, or stop at the first that is not ordinary memory (R72, R310). `spent` free values
were drawn for them. -/
def State.putBytes (s : State) (ws : List ByteAt) (spent : Nat) : Outcome :=
  match ws.find? (fun w => !s.isMemory w.1) with
  | some w => .fault (.destNotMemory w.1)
  | none => .next { s with mem := Memory.writeAll s.mem ws, draws := s.draws + spent }

/-- A completed command's destination writes (R83, R85). -/
def State.putCommand (s : State) (ws : List ByteAt) : Outcome :=
  s.putBytes (s.landing ws) (if s.raced.isEmpty then 0 else ws.length)

/-! ## Registers of the block -/

/-- The context of a video block. -/
def State.context (s : State) (v : Fin 4) : Context := s.ctx[v.val]

/-- Write the context of one video block. -/
def State.setContext (s : State) (v : Fin 4) (c : Context) : State := { s with ctx := s.ctx.set v.val c }

/-- Zero the whole coefficient RAM; the entries become written (R25, R54). -/
def State.clearCoef (s : State) : State := { s with coef := Vector.replicate 512 (.written 0) }

/-- AUTO_CLEAR's last effect of a performed MB_DECODE or MB_ABORT (R25, R201, R262). -/
def State.autoClearCoef (s : State) : State :=
  { s with coef := if s.autoClear then Vector.replicate 512 (.written 0) else s.coef }

/-- Write COEF word `j`: `COEF[2j] <- d[15:0]; COEF[2j+1] <- d[31:16]` (R46, R136). -/
def State.storeCoefWord (s : State) (j : Nat) (d : Word) : State :=
  { s with coef := (s.coef.setIfInBounds (2 * j) (.written (d.extractLsb' 0 16))).setIfInBounds (2 * j + 1) (.written (d.extractLsb' 16 16)) }

/-- Take the next input off the list. -/
def State.withInputs (s : State) (rest : List Input) : State := { s with inputs := rest }

/-- Answer the host on its bus. -/
def State.respond (s : State) (r : Response) : State := { s with response := r }

/-- Free values that were drawn are drawn for good. -/
def State.spend (s : State) (n : Nat) : State := { s with draws := s.draws + n }

/-! ## Errors: the block's exceptions -/

/-- INT_STATUS.CMD_DONE, INT_STATUS.ERR and INT_STATUS.OVR (R27). -/
def intCmdDone : BitVec 3 := 0b001#3
@[inherit_doc intCmdDone] def intErr : BitVec 3 := 0b010#3
@[inherit_doc intCmdDone] def intOvr : BitVec 3 := 0b100#3

/-- Record an error (R303, R305): the first one since reset or FRAME_START is kept in ERR_INFO and ERR_MB, and
INT_STATUS.ERR is set by every one. A `raise` is this and then the end of the command; a `signal` is this and then the rest
of the command. Nothing else is saved and no control is transferred (R312). -/
def State.recordError (s : State) (code : ErrCode) (vb : BitVec 2) (mb : Word) : State :=
  { s with
    errCode := if s.errCode = .none then code else s.errCode
    errVb := if s.errCode = .none then vb else s.errVb
    errMb := if s.errCode = .none then mb else s.errMb
    intStatus := s.intStatus ||| intErr }

/-- `raise Err(code, vb, mb)` (R303, R304): the error is recorded and the command ends. -/
def State.raise (s : State) (code : ErrCode) (vb : BitVec 2) (mb : Word) : Outcome := .next (s.recordError code vb mb)

/-- `ERR_INFO <- 0; ERR_MB <- 0`, the start of FRAME_START (R160). -/
def State.clearError (s : State) : State := { s with errCode := .none, errVb := 0, errMb := 0 }

/-! ## Command lifecycle -/

/-- Accept a command word: `BUSY <- 1; CMDWORD <- d` (R134). The configuration registers are remembered as they stand,
since a later write of them never affects a command already accepted (R140, log 2). -/
def State.accept (s : State) (d : Word) : State := { s with busy := true, cmdWord := d, cmdCfg := s.cfg }

/-- A dropped write of CMD or COEF sets OVR (R135, R136). -/
def State.overrun (s : State) : State := { s with intStatus := s.intStatus ||| intOvr }

/-- The end of the completion step: `BUSY <- 0; INT_STATUS.CMD_DONE <- 1` (R138). -/
def State.complete (s : State) : State := { s with busy := false, intStatus := s.intStatus ||| intCmdDone, raced := [] }

/-- Enter "no frame geometry" (R51). -/
def State.enterNoGeometry (s : State) : State :=
  { s with fActive := false, geom := .none, frame := .zero, ctx := Vector.replicate 4 .unused }

/-! ## Reset -/

/-- Every register and all hidden state at its reset value, with the coefficient RAM given (R52, R340, R341). Destination
memory, the platform and the host are not touched (R343). -/
def State.resetBlock (s : State) (coef : Vector CoefEntry 512) : State :=
  { s with
    autoClear := false
    intStatus := 0
    intEnable := 0
    cfg := .zero
    errCode := .none
    errVb := 0
    errMb := 0
    busy := false
    cmdWord := 0
    cmdCfg := .zero
    fActive := false
    frame := .zero
    geom := .none
    ctx := Vector.replicate 4 .unused
    coef := coef
    raced := [] }

end Sys2Proof.Machine
end

