-- ==== Sys2Proof/Machine/Operands.lean ====
section
/-! DEFINITION. What a command reads: the coefficients (R46, R54), the context its VB names with the checks every
macroblock command makes of it (R201, R262), and the fields of the configuration registers (R29, R30). -/

namespace Sys2Proof.Machine

/-! ## Coefficients -/

/-- Entry `n` of the coefficient RAM. -/
def State.coefEntry (s : State) (n : Nat) : CoefEntry := (s.coef[n]?).getD .unwritten

/-- The entry holds a value (R54). -/
def CoefEntry.isWritten : CoefEntry → Bool
  | .unwritten => false
  | .written _ => true

/-- Every entry is written, so that an MB_DECODE may read the RAM (R54, R201). -/
def State.coefReady (s : State) : Bool := s.coef.toList.all CoefEntry.isWritten

/-- The 16 bits of entry `n`; an unwritten entry gives a free value (R54, R131; U2). -/
def State.coefBits (s : State) (n : Nat) : Half :=
  match s.coefEntry n with
  | .written v => v
  | .unwritten => Config.freeHalf (s.draws + n)

/-- `Coef(n) = sext_16(COEF[n])` (R11, R46). -/
def State.coefInt (s : State) (n : Nat) : Int := (s.coefBits n).toInt

/-! ## Configuration fields -/

/-- FRAME_SIZE[15:0], WIDTH (R29). -/
def FrameConfig.width (c : FrameConfig) : Half := c.frameSize.extractLsb' 0 16

/-- FRAME_SIZE[31:16], HEIGHT (R29). -/
def FrameConfig.height (c : FrameConfig) : Half := c.frameSize.extractLsb' 16 16

/-- FRAME_MODE.SCAN (R30, R107). -/
def FrameConfig.scan (c : FrameConfig) : Scan := if c.frameMode.getLsbD 0 then .interlaced else .progressive

/-- FRAME_MODE.FMT (R30, R107). -/
def FrameConfig.fmt (c : FrameConfig) : Fmt := if c.frameMode.getLsbD 1 then .xrgb else .yuv422

/-- Bytes of destination memory for each pixel (R161). -/
def Fmt.bpp : Fmt → Nat
  | .yuv422 => 2
  | .xrgb => 4

/-- The video-block count of a scan mode (R170). -/
def Scan.vbc : Scan → Nat
  | .progressive => 2
  | .interlaced => 4

/-! ## The context operand -/

/-- An error a command's checks found, with what it is attributed to (R300). -/
structure CtxError where
  code : ErrCode
  vb : BitVec 2
  mb : Word
  deriving DecidableEq, Repr

/-- The checks of MB_DECODE and MB_ABORT, in their order: NO_FRAME, VB_RANGE, VB_FAILED, VB_DONE (R201, R202, R262, R263).
The first that fails is answered. -/
def State.ctxError? (s : State) (vb : Fin 4) : Option CtxError :=
  if s.fActive = false then some ⟨.noFrame, 0, 0⟩
  else if s.geom.vbc ≤ vb.val then some ⟨.vbRange, BitVec.ofNat 2 vb.val, 0⟩
  else if (s.context vb).state = .failed then some ⟨.vbFailed, BitVec.ofNat 2 vb.val, (s.context vb).mbIdx⟩
  else if (s.context vb).state = .done then some ⟨.vbDone, BitVec.ofNat 2 vb.val, (s.context vb).mbIdx⟩
  else none

end Sys2Proof.Machine
end

