-- ==== Sys2Proof/Machine/Flags.lean ====
section
/-! DEFINITION. The flags and the words software reads them in: STATUS (R26), ERR_INFO (R36), the GEOM registers (R41 to
R45), the context registers (R38 to R40), and the interrupt output (R53). -/

namespace Sys2Proof.Machine

/-- The encoding of CTX_STATE (R107). -/
def CtxState.code : CtxState → BitVec 2
  | .idle => 0
  | .run => 1
  | .done => 2
  | .failed => 3

/-- The encoding of ERR_INFO.CODE (R300). -/
def ErrCode.code : ErrCode → BitVec 8
  | .none => 0x00
  | .illegalCmd => 0x01
  | .geometry => 0x02
  | .resource => 0x03
  | .noFrame => 0x04
  | .vbRange => 0x05
  | .vbFailed => 0x06
  | .vbDone => 0x07
  | .bitstream => 0x08
  | .incomplete => 0x09

/-- STATUS.ERR: an error is recorded (R26). -/
def State.errFlag (s : State) : Bool := s.errCode ≠ .none

/-- STATUS.ALL_DONE: a geometry is latched and every context of it is DONE (R26). -/
def State.allDone (s : State) : Bool :=
  s.geom.vbc ≠ 0 && (List.finRange 4).all (fun v => s.geom.vbc ≤ v.val || (s.context v).state = .done)

/-- STATUS: reserved [31:16], CTX_STATE[3..0] at [15:8], reserved [7:4], ALL_DONE, ERR, FRAME_ACTIVE, BUSY (R26). -/
def State.status (s : State) : Word :=
  0#16 ++ (s.context 3).state.code ++ (s.context 2).state.code ++ (s.context 1).state.code ++ (s.context 0).state.code
    ++ 0#4 ++ BitVec.ofBool s.allDone ++ BitVec.ofBool s.errFlag ++ BitVec.ofBool s.fActive ++ BitVec.ofBool s.busy

/-- CTRL: bit 1 is AUTO_CLEAR, bit 0 reads 0 (R25). -/
def State.ctrl (s : State) : Word := 0#30 ++ BitVec.ofBool s.autoClear ++ 0#1

/-- INT_STATUS (R27). -/
def State.intStatusWord (s : State) : Word := 0#29 ++ s.intStatus

/-- INT_ENABLE (R28). -/
def State.intEnableWord (s : State) : Word := 0#29 ++ s.intEnable

/-- FRAME_MODE (R30). -/
def FrameConfig.frameModeWord (c : FrameConfig) : Word := 0#30 ++ c.frameMode

/-- ERR_INFO: VB at [9:8], CODE at [7:0] (R36). -/
def State.errInfo (s : State) : Word := 0#22 ++ s.errVb ++ s.errCode.code

/-- CTX_PADPOS[v]: PADY at [31:16], PADX at [15:0] (R40). -/
def Context.padPos (c : Context) : Word := c.padY ++ c.padX

/-- GEOM_STRIPY: the macroblock row of the strip, or 0xFFFFFFFF when the frame has none (R45, R165). -/
def Geom.stripY (g : Geom) : Word := if g.strip then BitVec.ofNat 32 g.h16 else 0xFFFFFFFF

/-- GEOM_VBC: bits [2:0] (R41). -/
def Geom.vbcWord (g : Geom) : Word := 0#29 ++ BitVec.ofNat 3 g.vbc

/-- The interrupt output, `(INT_STATUS[2:0] & INT_ENABLE[2:0]) != 0` (R53). -/
def State.irq (s : State) : Bool := s.intStatus &&& s.intEnable ≠ 0

end Sys2Proof.Machine
end

