-- ==== Sys2Proof/Machine/Arrangement.lean ====
section
/-! DEFINITION. FRAME_START (R160 to R165) and the macroblock arrangement it latches (R170 to R174). The arithmetic is on
natural numbers, unbounded (R10). -/

namespace Sys2Proof.Machine

/-! ## The checks -/

/-- GeometryOK(W, H) (R162). -/
def geometryOk (w h : Nat) : Bool :=
  0 < w && 0 < h && w % 16 = 0 && (h % 16 = 0 || h % 16 = 8) && (h % 16 ≠ 8 || w % 32 = 0)

/-- ResourceOK(W, H, fmt, base, stride, size) (R161). -/
def resourceOk (w h : Nat) (fmt : Fmt) (base stride size : Nat) : Bool :=
  w * fmt.bpp ≤ stride && stride * h ≤ size && base + size ≤ 2 ^ 32

/-! ## The arrangement -/

/-- macroBlockTotalCount (R170). -/
def mbTotal (w h : Nat) : Nat := w * h / 256

/-- The extra macroblock of video block `v`: the remainder goes to blocks 1, 3, 2 in that order (R170). -/
def mbExtra (rem : Nat) (v : Nat) : Nat := if v ∈ [1, 3, 2].take rem then 1 else 0

/-- `count[v]`: how many macroblocks video block `v` owns (R170). -/
def blockCount (w h : Nat) (scan : Scan) (v : Nat) : Nat :=
  mbTotal w h / scan.vbc + mbExtra (mbTotal w h % scan.vbc) v

/-- paddingStartY, PS (R171). -/
def padStartRow (h : Nat) (scan : Scan) : Nat := h / (16 * scan.vbc) * scan.vbc

/-- NORMAL (R172). -/
def normalCount (w h : Nat) (scan : Scan) : Nat := padStartRow h scan / scan.vbc * (w / 16)

/-- `P[v]`, the sum over `j < v` of `count[j] - NORMAL` (R173). -/
def padRunStart (w h : Nat) (scan : Scan) (v : Nat) : Nat :=
  ((List.range v).map (fun j => blockCount w h scan j - normalCount w h scan)).sum

/-- NSTRIP: the 32×8 macroblocks of the strip (R172). -/
def stripCount (w h : Nat) : Nat := if h % 16 ≠ 0 then w / 32 else 0

/-- `Arrangement(W, H, scan)` (R170 to R173). `P[v]` of a video block the frame does not have is 0. -/
def arrangement (w h : Nat) (scan : Scan) : Geom where
  vbc := scan.vbc
  per := w / 16
  total := mbTotal w h
  h16 := h / 16
  strip := h % 16 ≠ 0
  ps := padStartRow h scan
  normal := normalCount w h scan
  padFull := (h / 16 - padStartRow h scan) * (w / 16)
  p := Vector.ofFn (fun v : Fin 4 => if v.val < scan.vbc then padRunStart w h scan v.val else 0)

/-- `PadGrid(G, p)`: the grid position of padding macroblock `p` (R173). -/
def padGrid (g : Geom) (p : Nat) : Nat × Nat :=
  if p < g.padFull then (p % g.per, g.ps + p / g.per) else (p - g.padFull, g.h16)

/-- The two shapes of a macroblock (R174). -/
inductive MbKind where
  | std16   -- 16×16 pixels
  | strip   -- 32×8 pixels
  deriving DecidableEq, Repr

/-- Where a macroblock lies (R174). -/
structure MbPlace where
  kind : MbKind
  x0 : Nat
  y0 : Nat
  deriving DecidableEq, Repr

/-- Width and height of a macroblock in pixels (R174). -/
def MbKind.width : MbKind → Nat
  | .std16 => 16
  | .strip => 32
@[inherit_doc MbKind.width] def MbKind.height : MbKind → Nat
  | .std16 => 16
  | .strip => 8

/-- `MbPos(v, i)`: macroblock `i` of video block `v` (R174). -/
def mbPos (g : Geom) (v : Fin 4) (i : Nat) : MbPlace :=
  if i < g.normal then ⟨.std16, 16 * (i % g.per), 16 * (v.val + g.vbc * (i / g.per))⟩
  else
    let (mx, my) := padGrid g (g.p[v.val] + (i - g.normal))
    if my < g.h16 then ⟨.std16, 16 * mx, 16 * my⟩ else ⟨.strip, 32 * mx, 16 * g.h16⟩

/-- The pixel `(x, y)` lies in a macroblock's rectangle (R174). -/
def MbPlace.covers (m : MbPlace) (x y : Nat) : Prop :=
  m.x0 ≤ x ∧ x < m.x0 + m.kind.width ∧ m.y0 ≤ y ∧ y < m.y0 + m.kind.height

/-! ## FRAME_START -/

/-- A context of `InitContexts(G)` (R165): a video block with no macroblock starts DONE, one the frame does not have is
unused. -/
def initContext (w h : Nat) (scan : Scan) (v : Fin 4) : Context :=
  if v.val < scan.vbc then
    let (mx, my) := padGrid (arrangement w h scan) (padRunStart w h scan v.val)
    { state := if blockCount w h scan v.val = 0 then .done else .run
      mbIdx := 0
      mbCount := BitVec.ofNat 32 (blockCount w h scan v.val)
      padX := BitVec.ofNat 16 mx
      padY := BitVec.ofNat 16 my }
  else .unused

/-- The successful end of FRAME_START: latch the frame, its geometry and its contexts, `F_ACTIVE <- 1` (R160, R165). -/
def State.latchFrame (s : State) (c : FrameConfig) : State :=
  { s with
    fActive := true
    frame := ⟨c.width, c.height, c.scan, c.fmt, c.destBase, c.destStride⟩
    geom := arrangement c.width.toNat c.height.toNat c.scan
    ctx := Vector.ofFn (initContext c.width.toNat c.height.toNat c.scan) }

/-- FRAME_START (R160), on the configuration registers as they stood when it was accepted (R140). -/
def execFrameStart (s : State) : Outcome :=
  let c := s.cmdCfg
  let t := s.clearError.enterNoGeometry
  if geometryOk c.width.toNat c.height.toNat = false then t.raise .geometry 0 0
  else if resourceOk c.width.toNat c.height.toNat c.fmt c.destBase.toNat c.destStride.toNat c.destSize.toNat = false then
    t.raise .resource 0 0
  else .next (t.latchFrame c)

end Sys2Proof.Machine
end

