-- ==== Sys2Proof/Machine/Placement.lean ====
section
/-! DEFINITION. Where the samples of a macroblock go: the three placement regimes (R207 to R211), the inverse DCT stage
(R203), and the packed YUV422 writer (R212, R213). -/

namespace Sys2Proof.Machine

/-- The placement regimes (R207). -/
inductive Regime where
  | std | field | strip
  deriving DecidableEq, Repr

/-- `Regime(kind, scan, field)` (R207). -/
def regimeOf (kind : MbKind) (scan : Scan) (field : Bool) : Regime :=
  match kind with
  | .strip => .strip
  | .std16 => if scan = .interlaced ∧ field = true then .field else .std

/-- Width and height in pixels of a macroblock placed in a regime (R208 to R210). -/
def Regime.width : Regime → Nat
  | .std | .field => 16
  | .strip => 32
@[inherit_doc Regime.width] def Regime.height : Regime → Nat
  | .std | .field => 16
  | .strip => 8

/-- `LumaXY(reg, k, r, c)`: the pixel offset `(dx, dy)` of sample `(r, c)` of luma block `k` (R208 to R210). -/
def lumaXY (reg : Regime) (k r c : Nat) : Nat × Nat :=
  match reg with
  | .std => ([0, 0, 8, 8].getD k 0 + c, [0, 8, 0, 8].getD k 0 + r)
  | .field => ([0, 0, 8, 8].getD k 0 + c, [0, 1, 0, 1].getD k 0 + 2 * r)
  | .strip => ([0, 16, 8, 24].getD k 0 + c, r)

/-- `ChromaXY(reg, j, r, c)`: the chroma column and line offset `(dxc, dy)` of sample `(r, c)` of chroma block `j` of one
component (R208 to R210). -/
def chromaXY (reg : Regime) (j r c : Nat) : Nat × Nat :=
  match reg with
  | .std => (c, 8 * j + r)
  | .field => (c, j + 2 * r)
  | .strip => (8 * j + c, r)

/-- The samples of a macroblock, by DCT block (Y0, Y1, Y2, Y3, Cr0, Cr1, Cb0, Cb1) and index `8r + c` (R13, R203). -/
abbrev Samples := Nat → Nat → Byte

/-- The type of the inverse transform (R203). -/
abbrev Idct := (Fin 64 → Int) → (Fin 64 → Fin 256)

/-- `S[k] <- idct(fun n => Coef(64*k + n))` (R201, R203). -/
def samplesOf (idct : Idct) (coef : Nat → Int) : Samples :=
  fun k m => BitVec.ofNat 8 (idct (fun n => coef (64 * k + n.val)) (Fin.ofNat 64 m)).val

/-- Named properties of an inverse transform (R204). A claim may assume one of them; the machine assumes none. -/
def IdctDcUniform (idct : Idct) : Prop :=
  ∀ f : Fin 64 → Int, (∀ n, n ≠ 0 → f n = 0) → ∀ m m' : Fin 64, idct f m = idct f m'

/-- The input that is `d` at entry 0 and 0 elsewhere (R204). -/
def dcOnly (d : Int) : Fin 64 → Int := fun n => if n = 0 then d else 0

@[inherit_doc IdctDcUniform] def IdctDcValue (idct : Idct) (d : Int) (v : Fin 256) : Prop :=
  ∀ m : Fin 64, idct (dcOnly d) m = v

/-! ## Packed YUV422 -/

/-- `line(dy) = F_BASE + (Y0 + dy) * F_STRIDE` (R212, R245). -/
def lineAddr (f : Latched) (y : Nat) : Nat := f.base.toNat + y * f.stride.toNat

/-- The luma writes of `WriteYUV422`, block by block (R212). -/
def lumaWrites (f : Latched) (reg : Regime) (x0 y0 : Nat) (smp : Samples) : List ByteAt :=
  (List.range 4).flatMap fun k => (List.range 8).flatMap fun r => (List.range 8).map fun c =>
    let (dx, dy) := lumaXY reg k r c
    (lineAddr f (y0 + dy) + 2 * (x0 + dx), smp k (8 * r + c))

/-- The chroma writes of `WriteYUV422`: Cb at byte 1 and Cr at byte 3 of each 4-byte group (R212). -/
def chromaWrites (f : Latched) (reg : Regime) (x0 y0 : Nat) (smp : Samples) : List ByteAt :=
  (List.range 2).flatMap fun j => (List.range 8).flatMap fun r => (List.range 8).flatMap fun c =>
    let (dxc, dy) := chromaXY reg j r c
    [(lineAddr f (y0 + dy) + 4 * (x0 / 2 + dxc) + 1, smp (6 + j) (8 * r + c)),
     (lineAddr f (y0 + dy) + 4 * (x0 / 2 + dxc) + 3, smp (4 + j) (8 * r + c))]

/-- `WriteYUV422(reg, X0, Y0, S)` (R212). -/
def yuvWrites (f : Latched) (reg : Regime) (x0 y0 : Nat) (smp : Samples) : List ByteAt :=
  lumaWrites f reg x0 y0 smp ++ chromaWrites f reg x0 y0 smp

/-- First byte, sample step and row step of DCT block `k` (R213): the view DOC calls DctBlockInfo. -/
def blockView (f : Latched) (reg : Regime) (x0 y0 k : Nat) : Nat × Nat × Nat :=
  let l := lineAddr f y0 + 2 * x0
  let s := f.stride.toNat
  let rs := match reg with
    | .field => 2 * s
    | .std | .strip => s
  let second := match reg with          -- where the second block of a pair starts
    | .std => 8 * s
    | .field => s
    | .strip => 32
  match k with
  | 0 => (l, 2, rs)
  | 1 => (l + second, 2, rs)
  | 2 => (l + 16, 2, rs)
  | 3 => (l + second + 16, 2, rs)
  | 4 => (l + 3, 4, rs)
  | 5 => (l + second + 3, 4, rs)
  | 6 => (l + 1, 4, rs)
  | _ => (l + second + 1, 4, rs)

end Sys2Proof.Machine
end

