-- ==== Sys2Proof/Machine/Xrgb.lean ====
section
/-! DEFINITION. The YUV422-to-XRGB colour converter and writer (R240 to R248). -/

namespace Sys2Proof.Machine

/-! ## Samples of one macroblock -/

/-- The luma block and sample index `8r + c` that a pixel of the macroblock shows: the inverse of `lumaXY` (R211, R240). -/
def lumaAt (reg : Regime) (dx dy : Nat) : Nat × Nat :=
  match reg with
  | .std => (2 * (dx / 8) + dy / 8, 8 * (dy % 8) + dx % 8)
  | .field => (2 * (dx / 8) + dy % 2, 8 * (dy / 2) + dx % 8)
  | .strip => ([0, 2, 1, 3].getD (dx / 8) 0, 8 * dy + dx % 8)

/-- The chroma block of a component and the sample index that a chroma column and line show: the inverse of `chromaXY`
(R211, R240). -/
def chromaAt (reg : Regime) (dxc dy : Nat) : Nat × Nat :=
  match reg with
  | .std => (dy / 8, 8 * (dy % 8) + dxc)
  | .field => (dy % 2, 8 * (dy / 2) + dxc)
  | .strip => (dxc / 8, 8 * dy + dxc % 8)

/-- `Ymb[dy][dx]`, `Cbmb[dy][dxc]` and `Crmb[dy][dxc]` (R240). -/
def ymb (reg : Regime) (smp : Samples) (dx dy : Nat) : Byte := smp (lumaAt reg dx dy).1 (lumaAt reg dx dy).2
@[inherit_doc ymb] def cbmb (reg : Regime) (smp : Samples) (dxc dy : Nat) : Byte :=
  smp (6 + (chromaAt reg dxc dy).1) (chromaAt reg dxc dy).2
@[inherit_doc ymb] def crmb (reg : Regime) (smp : Samples) (dxc dy : Nat) : Byte :=
  smp (4 + (chromaAt reg dxc dy).1) (chromaAt reg dxc dy).2

/-! ## Colour function -/

/-- One pixel's colour, in the order its bytes are written. -/
structure Bgr where
  b : Byte
  g : Byte
  r : Byte
  deriving DecidableEq, Repr

/-- The un-clipped B, G and R of R242, each shifted right by 10 with floor (R10). -/
def rawB (bias y cb : Int) : Int := (1192 * (y - 16) + 2066 * (cb - 128) + bias) / 1024
@[inherit_doc rawB] def rawG (bias y cb cr : Int) : Int := (1192 * (y - 16) - 400 * (cb - 128) - 833 * (cr - 128) + bias) / 1024
@[inherit_doc rawB] def rawR (bias y cr : Int) : Int := (1192 * (y - 16) + 1634 * (cr - 128) + bias) / 1024

/-- `clamp(v, 0, 255)`, the model of DOC's clip table (R243). -/
def clip (v : Int) : Int := min (max v 0) 255

/-- `Convert(y, cb, cr)` with a rounding bias (R242, R244). -/
def convertWith (bias : Int) (y cb cr : Byte) : Bgr where
  b := BitVec.ofInt 8 (clip (rawB bias y.toNat cb.toNat))
  g := BitVec.ofInt 8 (clip (rawG bias y.toNat cb.toNat cr.toNat))
  r := BitVec.ofInt 8 (clip (rawR bias y.toNat cr.toNat))

/-- `Convert(y, cb, cr)` of this hardware (R242, R244). -/
def convert (y cb cr : Byte) : Bgr := convertWith Config.rgbBias y cb cr

/-- The colour of a pixel of the macroblock: two pixels of a line share a chroma sample (R241, R245). -/
def pixelColour (reg : Regime) (smp : Samples) (dx dy : Nat) : Bgr :=
  convert (ymb reg smp dx dy) (cbmb reg smp (dx / 2) dy) (crmb reg smp (dx / 2) dy)

/-! ## XRGB writer -/

/-- `a <- F_BASE + (Y0 + dy) * F_STRIDE + 4 * (X0 + dx)` (R245). -/
def pixelAddr (f : Latched) (x0 y0 dx dy : Nat) : Nat := lineAddr f (y0 + dy) + 4 * (x0 + dx)

/-- `WriteXRGB(reg, X0, Y0, S)` (R245); the fourth byte is always 255 (R246). -/
def xrgbWrites (f : Latched) (reg : Regime) (x0 y0 : Nat) (smp : Samples) : List ByteAt :=
  (List.range reg.height).flatMap fun dy => (List.range reg.width).flatMap fun dx =>
    let p := pixelColour reg smp dx dy
    let a := pixelAddr f x0 y0 dx dy
    [(a, p.b), (a + 1, p.g), (a + 2, p.r), (a + 3, 255)]

end Sys2Proof.Machine
end

