-- ==== Sys2Proof/Machine/MbDecode.lean ====
section
/-! DEFINITION. MB_DECODE (R200 to R202): one macroblock from the coefficient RAM to destination memory. -/

namespace Sys2Proof.Machine

/-- The destination bytes MB_DECODE writes for the macroblock its context places next, in the frame's one format (R201,
R248). The inverse transform is an argument (R203). -/
def State.mbWritesWith (s : State) (idct : Idct) (vb : Fin 4) (field : Bool) : List ByteAt :=
  let m := mbPos s.geom vb (s.context vb).mbIdx.toNat
  let reg := regimeOf m.kind s.frame.scan field
  let smp := samplesOf idct s.coefInt
  match s.frame.fmt with
  | .yuv422 => yuvWrites s.frame reg m.x0 m.y0 smp
  | .xrgb => xrgbWrites s.frame reg m.x0 m.y0 smp

/-- The context after one more macroblock: `CTX_MBIDX <- i + 1`, and DONE when that is all of them (R201). -/
def Context.advance (c : Context) : Context :=
  { c with mbIdx := c.mbIdx + 1, state := if c.mbIdx + 1 = c.mbCount then .done else c.state }

/-- MB_DECODE with the inverse transform as an argument (R201, R203). -/
def execMbDecodeWith (idct : Idct) (vb : Fin 4) (field : Bool) (s : State) : Outcome :=
  match s.ctxError? vb with
  | some e => s.raise e.code e.vb e.mb
  | none =>
    if s.coefReady = false then .fault .unwrittenCoefficient
    else (s.putCommand (s.mbWritesWith idct vb field)).onNext fun t =>
      .next (t.setContext vb (t.context vb).advance).autoClearCoef

/-- MB_DECODE (R201). -/
def execMbDecode (vb : Fin 4) (field : Bool) (s : State) : Outcome := execMbDecodeWith Config.idct vb field s

/-- The destination bytes that the command in flight would write if it completed now (R85, R342): those of an MB_DECODE
that passes its checks, and none for any other command. -/
def State.pendingWrites (s : State) : List ByteAt :=
  if s.busy then
    match decode s.cmdWord with
    | .ok (.mbDecode vb field) => if (s.ctxError? vb).isNone then s.mbWritesWith Config.idct vb field else []
    | _ => []
  else []

end Sys2Proof.Machine
end

