-- ==== Sys2Proof/Machine/FrameControl.lean ====
section
/-! DEFINITION. NOP (R260), MB_ABORT (R262), FRAME_END (R264), and what an illegal word does (R104, R139). -/

namespace Sys2Proof.Machine

/-- NOP: nothing but what every completion does (R260). -/
def execNop (s : State) : Outcome := .next s

/-- MB_ABORT (R262): the context becomes FAILED, BITSTREAM is signalled, and CTX_MBIDX is kept. -/
def execMbAbort (vb : Fin 4) (s : State) : Outcome :=
  match s.ctxError? vb with
  | some e => s.raise e.code e.vb e.mb
  | none =>
    let c := s.context vb
    .next (((s.setContext vb { c with state := .failed }).recordError .bitstream (BitVec.ofNat 2 vb.val) c.mbIdx).autoClearCoef)

/-- The least video block of the frame that still has macroblocks to place (R264, R265). -/
def State.leastRunning? (s : State) : Option (Fin 4) :=
  (List.finRange 4).find? fun v => v.val < s.geom.vbc && (s.context v).state = .run

/-- FRAME_END (R264): the frame ends, and INCOMPLETE is signalled for the least context still RUN. The contexts and the
geometry stay. -/
def execFrameEnd (s : State) : Outcome :=
  if s.fActive = false then s.raise .noFrame 0 0
  else
    let t := { s with fActive := false }
    match s.leastRunning? with
    | some v => .next (t.recordError .incomplete (BitVec.ofNat 2 v.val) (s.context v).mbIdx)
    | none => .next t

/-- An accepted word that matches no row raises ILLEGAL_CMD and has no other effect (R104, R139). -/
def execIllegal (s : State) : Outcome := s.raise .illegalCmd 0 0

end Sys2Proof.Machine
end

