-- ==== Sys2Proof/Machine/HostAccess.lean ====
section
/-! DEFINITION. The host's operations: the register map (R23), reads (R131), writes (R133 to R143), the resets (R340, R341),
and loads and stores of destination memory with their races (R85). -/

namespace Sys2Proof.Machine

/-- The registers of the window (R23); `coef j` is COEF word `j` (R46). -/
inductive Reg where
  | id | ctrl | status | intStatus | intEnable | frameSize | frameMode | destBase | destStride | destSize | cmd
  | errInfo | errMb | ctxMbIdx (v : Fin 4) | ctxMbCount (v : Fin 4) | ctxPadPos (v : Fin 4)
  | geomVbc | geomPerLine | geomTotal | geomPadY | geomStripY | coef (j : Fin 256)
  deriving DecidableEq, Repr

/-- The offset of a register (R23). -/
def Reg.offset : Reg → Nat
  | .id => 0x000
  | .ctrl => 0x004
  | .status => 0x008
  | .intStatus => 0x00C
  | .intEnable => 0x010
  | .frameSize => 0x020
  | .frameMode => 0x024
  | .destBase => 0x028
  | .destStride => 0x02C
  | .destSize => 0x030
  | .cmd => 0x040
  | .errInfo => 0x044
  | .errMb => 0x048
  | .ctxMbIdx v => 0x050 + 4 * v.val
  | .ctxMbCount v => 0x060 + 4 * v.val
  | .ctxPadPos v => 0x070 + 4 * v.val
  | .geomVbc => 0x080
  | .geomPerLine => 0x084
  | .geomTotal => 0x088
  | .geomPadY => 0x08C
  | .geomStripY => 0x090
  | .coef j => 0x400 + 4 * j.val

/-- The registers that stand alone in the map, not in a run (R23). -/
def singleRegs : List Reg :=
  [.id, .ctrl, .status, .intStatus, .intEnable, .frameSize, .frameMode, .destBase, .destStride, .destSize, .cmd, .errInfo, .errMb,
   .geomVbc, .geomPerLine, .geomTotal, .geomPadY, .geomStripY]

/-- The register at an offset of the window, `none` for an unmapped one (R23, R133). -/
def regAt? (o : Nat) : Option Reg :=
  if o % 4 ≠ 0 then none
  else if 0x400 ≤ o ∧ o < 0x800 then some (.coef (Fin.ofNat 256 ((o - 0x400) / 4)))
  else if 0x050 ≤ o ∧ o < 0x060 then some (.ctxMbIdx (Fin.ofNat 4 ((o - 0x050) / 4)))
  else if 0x060 ≤ o ∧ o < 0x070 then some (.ctxMbCount (Fin.ofNat 4 ((o - 0x060) / 4)))
  else if 0x070 ≤ o ∧ o < 0x080 then some (.ctxPadPos (Fin.ofNat 4 ((o - 0x070) / 4)))
  else singleRegs.find? (fun r => r.offset = o)

/-- The offset in the window of an address on the host bus, `none` outside the window (R70, R71). -/
def windowOffset? (a : Nat) : Option Nat :=
  if Config.mmioBase ≤ a ∧ a < Config.mmioBase + Config.mmioSize then some (a - Config.mmioBase) else none

/-! ## Reads -/

/-- What a register reads (R24 to R46, R131). CMD and reserved bits read 0; an unwritten coefficient reads a free value. -/
def readReg (s : State) : Reg → Word
  | .id => Config.implId
  | .ctrl => s.ctrl
  | .status => s.status
  | .intStatus => s.intStatusWord
  | .intEnable => s.intEnableWord
  | .frameSize => s.cfg.frameSize
  | .frameMode => s.cfg.frameModeWord
  | .destBase => s.cfg.destBase
  | .destStride => s.cfg.destStride
  | .destSize => s.cfg.destSize
  | .cmd => 0
  | .errInfo => s.errInfo
  | .errMb => s.errMb
  | .ctxMbIdx v => (s.context v).mbIdx
  | .ctxMbCount v => (s.context v).mbCount
  | .ctxPadPos v => (s.context v).padPos
  | .geomVbc => s.geom.vbcWord
  | .geomPerLine => BitVec.ofNat 32 s.geom.per
  | .geomTotal => BitVec.ofNat 32 s.geom.total
  | .geomPadY => BitVec.ofNat 32 s.geom.ps
  | .geomStripY => s.geom.stripY
  | .coef j => s.coefBits (2 * j.val + 1) ++ s.coefBits (2 * j.val)

/-- How many free values a read draws: none, but for a COEF word with an unwritten half (R131). -/
def readDraws (s : State) : Reg → Nat
  | .coef j =>
    if (s.coefEntry (2 * j.val)).isWritten && (s.coefEntry (2 * j.val + 1)).isWritten then 0 else Config.coefN
  | _ => 0

/-- `RD32(o)` (R131, R133): the register's value, or 0 at an unmapped offset. No state of the block changes. -/
def readWindow (s : State) (o : Nat) : State :=
  match regAt? o with
  | some r => (s.respond (.word (readReg s r))).spend (readDraws s r)
  | none => s.respond (.word 0)

/-! ## Resets -/

/-- AbortInFlight (R342): the command in flight never completes, and each byte it would have written ends old or new. -/
def State.abortInFlight (s : State) : Outcome :=
  if s.busy then s.putBytes (s.landingAborted s.pendingWrites) (s.pendingWrites.length + Config.coefN) else .next s

/-- The soft reset (R341): registers as after power-on, COEF all 0 and written. -/
def State.softReset (s : State) : Outcome :=
  s.abortInFlight.onNext fun t => .next (t.resetBlock (Vector.replicate 512 (.written 0)))

/-- The power-on reset (R340): COEF is unwritten. A command in flight is lost as in a soft reset (log 9). -/
def State.powerOn (s : State) : Outcome :=
  s.abortInFlight.onNext fun t => .next (t.resetBlock (Vector.replicate 512 .unwritten))

/-! ## Writes -/

/-- A write of CTRL (R143): the soft reset, or AUTO_CLEAR. -/
def writeCtrl (s : State) (d : Word) : Outcome :=
  if d.getLsbD 0 then s.softReset else .next { s with autoClear := d.getLsbD 1 }

/-- A write of CMD (R134, R135): accepted while BUSY = 0, dropped while BUSY = 1. -/
def writeCmd (s : State) (d : Word) : State := if s.busy then s.overrun else s.accept d

/-- A write of COEF word `j` (R136): taken while BUSY = 0, dropped while BUSY = 1. -/
def writeCoef (s : State) (j : Nat) (d : Word) : State := if s.busy then s.overrun else s.storeCoefWord j d

/-- A write of a register (R133 to R136, R140 to R143). Read-only registers and reserved bits ignore it. -/
def writeReg (s : State) (d : Word) : Reg → Outcome
  | .ctrl => writeCtrl s d
  | .intStatus => .next { s with intStatus := s.intStatus &&& ~~~ d.extractLsb' 0 3 }
  | .intEnable => .next { s with intEnable := d.extractLsb' 0 3 }
  | .frameSize => .next { s with cfg := { s.cfg with frameSize := d } }
  | .frameMode => .next { s with cfg := { s.cfg with frameMode := d.extractLsb' 0 2 } }
  | .destBase => .next { s with cfg := { s.cfg with destBase := d } }
  | .destStride => .next { s with cfg := { s.cfg with destStride := d } }
  | .destSize => .next { s with cfg := { s.cfg with destSize := d } }
  | .cmd => .next (writeCmd s d)
  | .coef j => .next (writeCoef s j.val d)
  | .id | .status | .errInfo | .errMb | .ctxMbIdx _ | .ctxMbCount _ | .ctxPadPos _
  | .geomVbc | .geomPerLine | .geomTotal | .geomPadY | .geomStripY => .next s

/-- `WR32(o, d)` (R133): an unmapped offset ignores the write. -/
def writeWindow (s : State) (o : Nat) (d : Word) : Outcome :=
  match regAt? o with
  | some r => writeReg s d r
  | none => .next s

/-- Check an access to the window and perform it: an offset of 0x800 or more is not this block's (R71), and an access that
is not an aligned 32-bit one gets a bus error (R132). -/
def windowAccess (width : AccessWidth) (o : Nat) (access : Outcome) : Outcome :=
  if Config.mmioSize ≤ o then .refused (.outsideWindow o)
  else if width ≠ .word ∨ o % 4 ≠ 0 then .fault (.mmioBusError o)
  else access

/-! ## Destination memory, from the host's side -/

/-- The byte a host load answers: a byte that the command in flight writes may be seen old or new, and a free bit says
which (R85). -/
def loadedByte (s : State) (a : Nat) : Byte :=
  match Memory.read s.pendingWrites a with
  | some v => if Config.freeBit s.draws then v else Memory.byte s.mem a
  | none => Memory.byte s.mem a

/-- A host load of one destination byte (R70, R72, R85). -/
def hostLoad (s : State) (a : Nat) : Outcome :=
  if s.isMemory a then .next ((s.respond (.byte (loadedByte s a))).spend (if s.busy then Config.coefN else 0))
  else .refused (.hostNotMemory a)

/-- A host store of one destination byte (R70, R72). While a command is in flight the store races with it (R85). -/
def hostStore (s : State) (a : Nat) (v : Byte) : Outcome :=
  if s.isMemory a then
    .next { s with mem := Memory.write s.mem a v, raced := if s.busy then a :: s.raced else s.raced }
  else .refused (.hostNotMemory a)

/-- One host operation (R130). -/
def hostStep (s : State) : HostOp → Outcome
  | .read width o => windowAccess width o (.next (readWindow s o))
  | .write width o d => windowAccess width o (writeWindow s o d)
  | .load a => hostLoad s a.toNat
  | .store a v => hostStore s a.toNat v

end Sys2Proof.Machine
end

