-- ==== Sys2Proof/Machine/Dispatch.lean ====
section
/-! DEFINITION. What each command does when it completes: `Execute` of a decoded word (R139), one arm for each command. -/

namespace Sys2Proof.Machine

def exec (i : Instr) (s : State) : Host.Outcome State Fault Refusal :=
  match i with
  | .nop => Sys2Proof.Machine.execNop s
  | .frameStart => Sys2Proof.Machine.execFrameStart s
  | .mbDecode vb field => Sys2Proof.Machine.execMbDecode vb field s
  | .mbAbort vb => Sys2Proof.Machine.execMbAbort vb s
  | .frameEnd => Sys2Proof.Machine.execFrameEnd s

end Sys2Proof.Machine
end

