-- ==== Sys2Proof/Machine/Step.lean ====
section
/-! DEFINITION. One step of the machine (R130): the next input says whether the host, the datapath or the platform moves. -/

namespace Sys2Proof.Machine

/-- `Execute(w)` (R139): a legal word runs its command, an illegal one raises ILLEGAL_CMD. -/
def execute (s : State) : Outcome :=
  match decode s.cmdWord with
  | .ok i => exec i s
  | .error _ => execIllegal s

/-- The completion step (R138): the command's whole effect, then BUSY <- 0 and CMD_DONE <- 1. -/
def completionStep (s : State) : Outcome := (execute s).onNext fun t => .next t.complete

/-- The datapath's turn: its one kind of step is enabled while BUSY = 1 (R130), and while BUSY = 0 it does nothing (R325). -/
def datapathStep (s : State) : Outcome := if s.busy then completionStep s else .next s

/-- One step: the agent whose input comes next moves (R130). When no input is left the datapath has its turn, so a command
in flight completes (R360). -/
def step (s : State) : Host.Outcome State Fault Refusal :=
  match s.inputs with
  | [] => datapathStep s
  | .datapath :: rest => datapathStep (s.withInputs rest)
  | .host op :: rest => hostStep (s.withInputs rest) op
  | .powerOn :: rest => (s.withInputs rest).powerOn

/-- The state in which the command word `w` has just been accepted (R134) and the datapath moves next, so that the very
next step runs it (log 1). -/
def State.withFetchWord (s : State) (nbits w : Nat) : State :=
  (s.accept (BitVec.ofNat 32 (w % 2 ^ nbits))).withInputs (.datapath :: s.inputs)

end Sys2Proof.Machine
end

