-- ==== Sys2Proof/IdctRef.lean ====
section
/-! DEFINITION. The reference inverse transform `idct_ref` (R205) and the property IDCT_IS_REF (R204). Not normative and not
used by the machine: a claim may name it as a hypothesis. It is over the real numbers, so it is not computable. -/

namespace Sys2Proof.Machine

/-- `C(0) = 1/sqrt(2)`, `C(k) = 1` for `k > 0` (R205). -/
noncomputable def dctScale (k : Nat) : ℝ := if k = 0 then 1 / Real.sqrt 2 else 1

/-- `f(r, c)`, the orthonormal 8×8 inverse DCT-II (R205). -/
noncomputable def idctReal (f : Fin 64 → Int) (r c : Nat) : ℝ :=
  1 / 4 * ∑ q : Fin 8, ∑ p : Fin 8, dctScale p.val * dctScale q.val * (f (Fin.ofNat 64 (8 * q.val + p.val)) : ℝ)
    * Real.cos ((2 * c + 1) * p.val * Real.pi / 16) * Real.cos ((2 * r + 1) * q.val * Real.pi / 16)

/-- `idct_ref(F)[8r+c] = clamp(floor(f(r, c) + 1/2), 0, 255)` (R205). -/
noncomputable def idctRef : Idct := fun f m =>
  Fin.ofNat 256 (min (max ⌊idctReal f (m.val / 8) (m.val % 8) + 1 / 2⌋ 0) 255).toNat

/-- IDCT_IS_REF (R204). -/
def IdctIsRef (idct : Idct) : Prop := idct = idctRef

end Sys2Proof.Machine
end

