-- ==== Sys2Proof/Machine/HostProgram.lean ====
section
/-! DEFINITION. The host-program notation (R108) and the pseudo-instructions (R109), as the host operations they expand to.
A polling loop is the reads it made: `waitIdle n` is a WAITIDLE that read STATUS `n` times. -/

namespace Sys2Proof.Machine

/-- `RD32 o` (R108, R130). -/
def rd32 (o : Nat) : HostOp := .read .word o

/-- `WR32 o, d` (R108, R130). -/
def wr32 (o : Nat) (d : Word) : HostOp := .write .word o d

/-- `WAITIDLE`, when the loop read STATUS `polls` times (R109). -/
def waitIdle (polls : Nat) : List HostOp := List.replicate polls (rd32 Reg.status.offset)

/-- `CMD <command>`: WAITIDLE, then the command's word (R109). -/
def cmdOps (polls : Nat) (i : Instr) : List HostOp := waitIdle polls ++ [wr32 Reg.cmd.offset (encode i)]

/-- `CFG w, h, scan, fmt, base, stride, size` (R109). -/
def cfgOps (w h scan fmt base stride size : Word) : List HostOp :=
  [wr32 Reg.frameSize.offset ((h <<< 16) ||| w), wr32 Reg.frameMode.offset ((fmt <<< 1) ||| scan),
   wr32 Reg.destBase.offset base, wr32 Reg.destStride.offset stride, wr32 Reg.destSize.offset size]

/-- `LDBLK k, c0, …, c63` (R109). -/
def ldblkOps (k : Nat) (c : Nat → Half) : List HostOp :=
  (List.range 32).map fun j => wr32 (0x400 + 128 * k + 4 * j) (c (2 * j + 1) ++ c (2 * j))

/-- `LDDC k, d` (R109). -/
def lddcOps (k : Nat) (d : Half) : List HostOp := ldblkOps k (fun n => if n = 0 then d else 0)

/-- `ZEROCOEF` (R109). -/
def zeroCoefOps : List HostOp := (List.range 256).map fun j => wr32 (0x400 + 4 * j) 0

/-- `SETCTRL v` (R109). -/
def setCtrlOps (v : Word) : List HostOp := [wr32 Reg.ctrl.offset v]

end Sys2Proof.Machine

namespace Sys2Proof

/-- The assembler text of a command: the mnemonic and its nonzero operands (R108). -/
def Instr.asm (i : Instr) : String :=
  let operands : List String := match i with
    | .mbDecode vb field => (if vb = 0 then [] else ["vb=" ++ toString vb.val]) ++ (if field then ["field=1"] else [])
    | .mbAbort vb => if vb = 0 then [] else ["vb=" ++ toString vb.val]
    | .nop | .frameStart | .frameEnd => []
  if operands.isEmpty then i.mnemonic else i.mnemonic ++ " " ++ ", ".intercalate operands

end Sys2Proof
end

