-- ==== Sys2Proof/Safety.lean ====
section
/-! DEFINITION. What a sound state is: the invariants that every step keeps, in the terms the statements use. -/

namespace Sys2Proof.Machine

/-- "No frame geometry" (R51). -/
def State.NoGeometry (s : State) : Prop :=
  s.fActive = false ∧ s.frame = .zero ∧ s.geom = .none ∧ ∀ v : Fin 4, s.context v = .unused

/-- A context of a latched frame (R31, R38 to R40): it owns `count[v]` macroblocks from the padding start that FRAME_START
gave it, has placed at most that many, and is DONE exactly when it has placed them all; RUN and FAILED have some left. A
context the frame does not have is unused. -/
def Context.Sound (c : Context) (w h : Nat) (scan : Scan) (v : Fin 4) : Prop :=
  if v.val < scan.vbc then
    c.mbCount = (initContext w h scan v).mbCount ∧ c.padX = (initContext w h scan v).padX
      ∧ c.padY = (initContext w h scan v).padY ∧ c.mbIdx.toNat ≤ blockCount w h scan v.val
      ∧ (c.state = .run ∨ c.state = .failed → c.mbIdx.toNat < blockCount w h scan v.val)
      ∧ (c.state = .done → c.mbIdx.toNat = blockCount w h scan v.val) ∧ c.state ≠ .idle
  else c = .unused

/-- The state of a latched frame (R47, R161, R162, R165): its dimensions pass the checks, its buffer lies inside the address
space, and the geometry and the contexts are those of its dimensions. -/
def State.HasFrame (s : State) : Prop :=
  geometryOk s.frame.w.toNat s.frame.h.toNat = true
    ∧ s.frame.w.toNat * s.frame.fmt.bpp ≤ s.frame.stride.toNat
    ∧ s.frame.base.toNat + s.frame.stride.toNat * s.frame.h.toNat ≤ Config.addrSpace
    ∧ s.geom = arrangement s.frame.w.toNat s.frame.h.toNat s.frame.scan
    ∧ ∀ v : Fin 4, (s.context v).Sound s.frame.w.toNat s.frame.h.toNat s.frame.scan v

/-- Either no geometry is latched or a sound frame is; an active frame is a sound one (R47, R51). -/
def State.FrameSound (s : State) : Prop := s.NoGeometry ∨ s.HasFrame

/-- With no error recorded, ERR_INFO and ERR_MB are 0 (R36, R37, R303). -/
def State.ErrorSound (s : State) : Prop := s.errCode = .none → s.errVb = 0 ∧ s.errMb = 0

/-- The host races only with a command in flight (R85). -/
def State.RaceSound (s : State) : Prop := s.busy = false → s.raced = []

/-- The invariant of the machine. -/
structure State.Inv (s : State) : Prop where
  memory : Memory.wf s.mem = true
  frame : s.FrameSound
  error : s.ErrorSound
  race : s.RaceSound

/-- The bytes of destination memory a latched frame may write: the first `F_W·bpp` bytes of each of its lines (R81). -/
def Latched.ownsByte (f : Latched) (a : Nat) : Prop :=
  ∃ y b : Nat, y < f.h.toNat ∧ b < f.w.toNat * f.fmt.bpp ∧ a = f.base.toNat + y * f.stride.toNat + b

/-- GeometryOK(W, H) as R162 lists it. -/
def FrameConfig.GeometryHolds (c : FrameConfig) : Prop :=
  0 < c.width.toNat ∧ 0 < c.height.toNat ∧ c.width.toNat % 16 = 0
    ∧ (c.height.toNat % 16 = 0 ∨ c.height.toNat % 16 = 8) ∧ (c.height.toNat % 16 = 8 → c.width.toNat % 32 = 0)

/-- ResourceOK as R161 lists it. -/
def FrameConfig.ResourceHolds (c : FrameConfig) : Prop :=
  c.width.toNat * (if c.fmt = .xrgb then 4 else 2) ≤ c.destStride.toNat
    ∧ c.destStride.toNat * c.height.toNat ≤ c.destSize.toNat ∧ c.destBase.toNat + c.destSize.toNat ≤ 2 ^ 32

/-- A macroblock command on a context passes its checks: the frame is active, the context is one of its video blocks and is
neither FAILED nor DONE (R201, R262). -/
def State.Runs (s : State) (vb : Fin 4) : Prop :=
  s.fActive = true ∧ vb.val < s.geom.vbc ∧ (s.context vb).state ≠ .failed ∧ (s.context vb).state ≠ .done

/-- Every entry of the coefficient RAM is written (R54). -/
def State.CoefWritten (s : State) : Prop := ∀ n, n < 512 → s.coefEntry n ≠ .unwritten

/-- The platform backs every byte that an MB_DECODE of a context would write (R72). -/
def State.Backed (s : State) (idct : Idct) (vb : Fin 4) (field : Bool) : Prop :=
  ∀ w ∈ s.mbWritesWith idct vb field, s.isMemory w.1 = true

/-- The block's registers and hidden state are those of a reset (R52), with the coefficient RAM given: the block's part of
what either reset leaves (R340, R341). -/
def State.BlockIsReset (t : State) (coef : CoefEntry) : Prop :=
  t.autoClear = false ∧ t.intEnable = 0 ∧ t.cfg = .zero ∧ t.intStatus = 0 ∧ t.errCode = .none ∧ t.errVb = 0 ∧ t.errMb = 0
    ∧ t.busy = false ∧ t.cmdWord = 0 ∧ t.NoGeometry ∧ t.irq = false ∧ readReg t .geomStripY = 0xFFFFFFFF
    ∧ readReg t .id = Config.implId ∧ ∀ n, n < 512 → t.coefEntry n = coef

/-- The context a macroblock command names (R103). -/
def contextOf : Instr → Option (Fin 4)
  | .mbDecode vb _ => some vb
  | .mbAbort vb => some vb
  | .nop | .frameStart | .frameEnd => none

/-- Issue one command with the coefficient RAM loaded first: the command word is accepted and completes (R134, R138). -/
def State.issue (s : State) (i : Instr) (coef : Vector CoefEntry 512) : Outcome :=
  completionStep (({ s with coef := coef } : State).accept (encode i))

/-- Issue a list of commands, each with its own coefficients (R345). -/
def State.issueAll (s : State) (l : List (Instr × Vector CoefEntry 512)) : Outcome :=
  match l with
  | [] => .next s
  | c :: l => (s.issue c.1 c.2).onNext fun t => t.issueAll l

/-- Perform a list of host operations one after the other (R130). -/
def State.runHost (s : State) (l : List HostOp) : Outcome :=
  match l with
  | [] => .next s
  | op :: l => (hostStep s op).onNext fun t => t.runHost l

end Sys2Proof.Machine
end

