-- ==== Sys2Proof/Certificates/Slice0/Obligations.lean ====
section
/-! DEFINITION. The statements for the provers, from the numbered rules of the spec, file by file. A statement whose docstring
names a log entry rests on a choice of the model there. -/

open Sys2Proof Sys2Proof.Machine

/-! ## Command encoding (30_encoding.md) -/

/-- The worked encodings of R106, and `enc(op, vb, field) = op | (vb << 8) | (field << 10)`. -/
def Obligations.WorkedEncodings : Prop :=
  (∀ op vb field : Word, enc op vb field = op ||| (vb <<< 8) ||| (field <<< 10))
    ∧ encode (.mbDecode 2 true) = 0x00000602 ∧ encode (.mbDecode 3 false) = 0x00000302
    ∧ encode (.mbAbort 1) = 0x00000103 ∧ encode .frameStart = 0x00000001
    ∧ decode 0x00000602 = .ok (.mbDecode 2 true) ∧ decode 0x00000302 = .ok (.mbDecode 3 false)
    ∧ decode 0x00000103 = .ok (.mbAbort 1) ∧ decode 0x00000001 = .ok .frameStart
    ∧ decode 0x00000000 = .ok .nop ∧ decode 0x00000004 = .ok .frameEnd

/-- Among all 2^32 words, the one that decodes to a command is its encoding and no other: decode and encode agree both ways,
with every operand at every value; and decoding bytes takes one whole word in the window's byte order (R73, R101). -/
def Obligations.DecodeIsExactlyEncode : Prop :=
  (∀ (w : Word) (i : Instr), decode w = .ok i ↔ w = encode i)
    ∧ (∀ (w : Word) (rest : List Byte) (i : Instr), decodeBytes (wordBytes w ++ rest) = .ok (i, rest) ↔ w = encode i)
    ∧ ∀ bs : List Byte, bs.length < 4 → decodeBytes bs = .error .shortWord

/-- The match/mask table of R105: a word decodes to a command exactly when it matches a row, that row is the command's own, no
word matches two rows, and a word that matches no row is illegal. -/
def Obligations.DecodeMatchesTheTable : Prop :=
  opcodeRows = [⟨"NOP", 0x00000000, 0xFFFFFFFF⟩, ⟨"FRAME_START", 0x00000001, 0xFFFFFFFF⟩, ⟨"MB_DECODE", 0x00000002, 0xFFFFF8FF⟩,
      ⟨"MB_ABORT", 0x00000003, 0xFFFFFCFF⟩, ⟨"FRAME_END", 0x00000004, 0xFFFFFFFF⟩]
    ∧ ∀ w : Word,
      (∀ r ∈ opcodeRows, r.selects w = true ↔ w &&& r.mask = r.pattern)
        ∧ (∀ i, decode w = .ok i → ∃ r ∈ opcodeRows, r.selects w = true ∧ r.mnemonic = i.mnemonic)
        ∧ (∀ r ∈ opcodeRows, r.selects w = true → ∃ i, decode w = .ok i ∧ r.mnemonic = i.mnemonic)
        ∧ (∀ r ∈ opcodeRows, ∀ r' ∈ opcodeRows, r.selects w = true → r'.selects w = true → r = r')
        ∧ ((∀ r ∈ opcodeRows, r.selects w = false) → ∃ e, decode w = .error e)

/-- A word is illegal exactly when its OP is in 0x05..0xFF or a must-be-zero field is not zero, and an accepted illegal word
completes with ILLEGAL_CMD and no other effect (R104). -/
def Obligations.IllegalWordOnlyRecordsItsError : Prop :=
  (∀ w : Word, (∃ e, decode w = .error e) ↔
      (4 < w.toNat % 256 ∨ w.toNat / 2048 ≠ 0
        ∨ (w.toNat / 256 % 4 ≠ 0 ∧ w.toNat % 256 ≠ 2 ∧ w.toNat % 256 ≠ 3)
        ∨ (w.toNat / 1024 % 2 ≠ 0 ∧ w.toNat % 256 ≠ 2)))
    ∧ ∀ (s : State) (e : Illegal) (rest : List Input), s.busy = true → s.inputs = .datapath :: rest →
        decode s.cmdWord = .error e →
        step s = .next { s with
          inputs := rest
          errCode := if s.errCode = .none then .illegalCmd else s.errCode
          errVb := if s.errCode = .none then 0 else s.errVb
          errMb := if s.errCode = .none then 0 else s.errMb
          busy := false
          intStatus := s.intStatus ||| 0b011
          raced := [] }

/-! ## Steps and the command lifecycle (40_host_access.md) -/

/-- The completion step executes the accepted command, clears BUSY and sets CMD_DONE (R138); it faults where the command does,
and no command is refused. And the word that `withFetchWord` accepts is the one the very next step executes (log 1). -/
def Obligations.StepRunsTheAcceptedCommand : Prop :=
  (∀ (s : State) (rest : List Input) (i : Instr), s.busy = true → s.inputs = .datapath :: rest → decode s.cmdWord = .ok i →
    (∀ t, exec i (s.withInputs rest) = .next t →
        step s = .next { t with busy := false, intStatus := t.intStatus ||| 0b001, raced := [] })
      ∧ (∀ f, exec i (s.withInputs rest) = .fault f → step s = .fault f)
      ∧ ∀ r, exec i (s.withInputs rest) ≠ .refused r ∧ step s ≠ .refused r)
    ∧ ∀ (s t : State) (i : Instr), exec i ((s.accept (encode i)).withInputs s.inputs) = .next t →
        step (s.withFetchWord 32 (encode i).toNat) = .next t.complete

/-- While BUSY = 0 the datapath performs no step, and a machine with no input left takes the datapath's turn (R130, R325;
log 1). -/
def Obligations.DatapathIsIdleUnlessBusy : Prop :=
  ∀ s : State,
    (s.busy = false → s.inputs = [] → step s = .next s)
      ∧ (s.busy = false → ∀ rest, s.inputs = .datapath :: rest → step s = .next { s with inputs := rest })
      ∧ (s.busy = true → s.inputs = [] → step s = step { s with inputs := [.datapath] })

/-- A write of CMD with BUSY = 0 accepts the word and changes nothing else of the block: no check is made yet (R134). With
BUSY = 1 the write is dropped and only sets OVR, whatever the word (R135). `cmdCfg` is the model's own field (log 2);
`FrameStartLatchesTheFrame` says what an acceptance puts there. -/
def Obligations.CommandIsAcceptedOrDropped : Prop :=
  ∀ (s : State) (d : Word) (rest : List Input), s.inputs = .host (.write .word 0x040 d) :: rest →
    (s.busy = false → ∃ t, step s = .next t ∧ t = { s with inputs := rest, busy := true, cmdWord := d, cmdCfg := t.cmdCfg })
      ∧ (s.busy = true → step s = .next { s with inputs := rest, intStatus := s.intStatus ||| 0b100 })

/-- A write of a COEF word with BUSY = 0 stores its two halves and nothing else; with BUSY = 1 it is dropped and sets OVR
(R136). -/
def Obligations.CoefficientWriteStoresOrOverruns : Prop :=
  ∀ (s : State) (j : Nat) (d : Word) (rest : List Input), j < 256 →
    s.inputs = .host (.write .word (0x400 + 4 * j) d) :: rest →
    (s.busy = false → ∃ t, step s = .next t ∧ t = { s with inputs := rest, coef := t.coef }
        ∧ t.coefEntry (2 * j) = .written (d.extractLsb' 0 16) ∧ t.coefEntry (2 * j + 1) = .written (d.extractLsb' 16 16)
        ∧ ∀ n, n ≠ 2 * j → n ≠ 2 * j + 1 → t.coefEntry n = s.coefEntry n)
      ∧ (s.busy = true → step s = .next { s with inputs := rest, intStatus := s.intStatus ||| 0b100 })

/-- A read of a mapped register answers its word and changes no state of the block, whatever BUSY is; the model's draw
counter moves only where a coefficient is unwritten (R131, log 4). The words are those of R24, R25, R27 to R46, field by field
(STATUS is `StatusFields`), with ERR_INFO.CODE as R300 encodes it; IMPL_ID is an open parameter (log 7). -/
def Obligations.RegisterReadChangesNothing : Prop :=
  (∀ (s : State) (r : Reg) (rest : List Input), s.inputs = .host (.read .word r.offset) :: rest →
    ∃ n, step s = .next { s with inputs := rest, response := .word (readReg s r), draws := s.draws + n }
      ∧ (s.CoefWritten → n = 0) ∧ ((∀ j : Fin 256, r ≠ .coef j) → n = 0)
      ∧ (∀ j : Fin 256, r = .coef j → ∀ lo hi, s.coefEntry (2 * j.val) = .written lo → s.coefEntry (2 * j.val + 1) = .written hi →
          n = 0 ∧ readReg s r = hi ++ lo))
    ∧ (∀ s : State,
        readReg s .id = Config.implId
          ∧ ((readReg s .ctrl).getLsbD 0 = false ∧ (readReg s .ctrl).getLsbD 1 = s.autoClear ∧ (readReg s .ctrl).extractLsb' 2 30 = 0)
          ∧ ((readReg s .intStatus).extractLsb' 0 3 = s.intStatus ∧ (readReg s .intStatus).extractLsb' 3 29 = 0)
          ∧ ((readReg s .intEnable).extractLsb' 0 3 = s.intEnable ∧ (readReg s .intEnable).extractLsb' 3 29 = 0)
          ∧ readReg s .frameSize = s.cfg.frameSize
          ∧ ((readReg s .frameMode).extractLsb' 0 2 = s.cfg.frameMode ∧ (readReg s .frameMode).extractLsb' 2 30 = 0)
          ∧ readReg s .destBase = s.cfg.destBase ∧ readReg s .destStride = s.cfg.destStride ∧ readReg s .destSize = s.cfg.destSize
          ∧ readReg s .cmd = 0
          ∧ ((readReg s .errInfo).extractLsb' 0 8 = s.errCode.code ∧ (readReg s .errInfo).extractLsb' 8 2 = s.errVb
            ∧ (readReg s .errInfo).extractLsb' 10 22 = 0)
          ∧ readReg s .errMb = s.errMb
          ∧ (∀ v : Fin 4, readReg s (.ctxMbIdx v) = (s.context v).mbIdx ∧ readReg s (.ctxMbCount v) = (s.context v).mbCount
            ∧ (readReg s (.ctxPadPos v)).extractLsb' 0 16 = (s.context v).padX
            ∧ (readReg s (.ctxPadPos v)).extractLsb' 16 16 = (s.context v).padY)
          ∧ ((readReg s .geomVbc).extractLsb' 0 3 = BitVec.ofNat 3 s.geom.vbc ∧ (readReg s .geomVbc).extractLsb' 3 29 = 0)
          ∧ readReg s .geomPerLine = BitVec.ofNat 32 s.geom.per ∧ readReg s .geomTotal = BitVec.ofNat 32 s.geom.total
          ∧ readReg s .geomPadY = BitVec.ofNat 32 s.geom.ps
          ∧ readReg s .geomStripY = (if s.geom.strip = true then BitVec.ofNat 32 s.geom.h16 else 0xFFFFFFFF))
    ∧ ErrCode.none.code = 0x00 ∧ ErrCode.illegalCmd.code = 0x01 ∧ ErrCode.geometry.code = 0x02 ∧ ErrCode.resource.code = 0x03
    ∧ ErrCode.noFrame.code = 0x04 ∧ ErrCode.vbRange.code = 0x05 ∧ ErrCode.vbFailed.code = 0x06 ∧ ErrCode.vbDone.code = 0x07
    ∧ ErrCode.bitstream.code = 0x08 ∧ ErrCode.incomplete.code = 0x09

/-- Every register has the offset of the table of R23 and no offset has two registers; all lie aligned inside the window. -/
def Obligations.RegisterMapIsExact : Prop :=
  (Reg.id.offset = 0x000 ∧ Reg.ctrl.offset = 0x004 ∧ Reg.status.offset = 0x008 ∧ Reg.intStatus.offset = 0x00C
      ∧ Reg.intEnable.offset = 0x010 ∧ Reg.frameSize.offset = 0x020 ∧ Reg.frameMode.offset = 0x024 ∧ Reg.destBase.offset = 0x028
      ∧ Reg.destStride.offset = 0x02C ∧ Reg.destSize.offset = 0x030 ∧ Reg.cmd.offset = 0x040 ∧ Reg.errInfo.offset = 0x044
      ∧ Reg.errMb.offset = 0x048
      ∧ (∀ v : Fin 4, (Reg.ctxMbIdx v).offset = 0x050 + 4 * v.val ∧ (Reg.ctxMbCount v).offset = 0x060 + 4 * v.val
        ∧ (Reg.ctxPadPos v).offset = 0x070 + 4 * v.val)
      ∧ Reg.geomVbc.offset = 0x080 ∧ Reg.geomPerLine.offset = 0x084 ∧ Reg.geomTotal.offset = 0x088 ∧ Reg.geomPadY.offset = 0x08C
      ∧ Reg.geomStripY.offset = 0x090 ∧ ∀ j : Fin 256, (Reg.coef j).offset = 0x400 + 4 * j.val)
    ∧ (∀ r : Reg, regAt? r.offset = some r ∧ r.offset % 4 = 0 ∧ r.offset < 0x800)
    ∧ ∀ (o : Nat) (r : Reg), regAt? o = some r → r.offset = o

/-- An access that is not 32 bits wide, or whose offset is not a multiple of 4, is the fault MmioBusError (R132). -/
def Obligations.BadAccessIsABusError : Prop :=
  ∀ (s : State) (width : AccessWidth) (o : Nat) (d : Word) (rest : List Input), o < 0x800 → (width ≠ .word ∨ o % 4 ≠ 0) →
    (s.inputs = .host (.read width o) :: rest → step s = .fault (.mmioBusError o))
      ∧ (s.inputs = .host (.write width o d) :: rest → step s = .fault (.mmioBusError o))

/-- Unmapped offsets read 0 and ignore writes, read-only registers ignore writes, and a write's reserved bits are ignored; no
error is raised (R133). -/
def Obligations.UnmappedAndReservedAreIgnored : Prop :=
  ∀ (s : State) (o : Nat) (d d' : Word) (rest : List Input), o < 0x800 → o % 4 = 0 →
    ((∀ r : Reg, r.offset ≠ o) →
        (s.inputs = .host (.write .word o d) :: rest → step s = .next { s with inputs := rest })
          ∧ (s.inputs = .host (.read .word o) :: rest → step s = .next { s with inputs := rest, response := .word 0 }))
      ∧ (o ∈ [0x000, 0x008, 0x044, 0x048, 0x050, 0x054, 0x058, 0x05C, 0x060, 0x064, 0x068, 0x06C, 0x070, 0x074, 0x078, 0x07C,
              0x080, 0x084, 0x088, 0x08C, 0x090] →
          s.inputs = .host (.write .word o d) :: rest → step s = .next { s with inputs := rest })
      ∧ (o ∈ [0x00C, 0x010] → d.toNat % 8 = d'.toNat % 8 → s.inputs = .host (.write .word o d) :: rest →
          step s = step { s with inputs := .host (.write .word o d') :: rest })
      ∧ (o ∈ [0x004, 0x024] → d.toNat % 4 = d'.toNat % 4 → s.inputs = .host (.write .word o d) :: rest →
          step s = step { s with inputs := .host (.write .word o d') :: rest })

/-- A write of a configuration register sets it, whatever BUSY is, and changes nothing else; a command already accepted
completes as it would have without the write, and no command but FRAME_START depends on the registers (R140). -/
def Obligations.ConfigurationWriteSparesTheAcceptedCommand : Prop :=
  ∀ (s : State) (d : Word) (rest : List Input),
    (s.inputs = .host (.write .word 0x020 d) :: rest → step s = .next { s with inputs := rest, cfg := { s.cfg with frameSize := d } })
      ∧ (s.inputs = .host (.write .word 0x024 d) :: rest →
          step s = .next { s with inputs := rest, cfg := { s.cfg with frameMode := d.extractLsb' 0 2 } })
      ∧ (s.inputs = .host (.write .word 0x028 d) :: rest → step s = .next { s with inputs := rest, cfg := { s.cfg with destBase := d } })
      ∧ (s.inputs = .host (.write .word 0x02C d) :: rest →
          step s = .next { s with inputs := rest, cfg := { s.cfg with destStride := d } })
      ∧ (s.inputs = .host (.write .word 0x030 d) :: rest → step s = .next { s with inputs := rest, cfg := { s.cfg with destSize := d } })
      ∧ (∀ (o : Nat) (t u : State), o ∈ [0x020, 0x024, 0x028, 0x02C, 0x030] → s.busy = true →
          s.inputs = .host (.write .word o d) :: .datapath :: rest → step s = .next t →
          step { s with inputs := .datapath :: rest } = .next u → step t = .next { u with cfg := t.cfg })
      ∧ ∀ (c c' : FrameConfig) (i : Instr), i ≠ .frameStart →
          exec i { s with cfg := c, cmdCfg := c' } = Outcome.onNext (exec i s) (fun t => .next { t with cfg := c, cmdCfg := c' })

/-- `irq` is high exactly when some enabled bit is pending, in every state and so in the same step as the bits change (R53). A
write of INT_STATUS clears the bits written 1 and leaves the others (R141). A write of INT_ENABLE sets its three bits
(R142). -/
def Obligations.InterruptRegisterWrites : Prop :=
  (∀ t : State, t.irq = true ↔ ∃ i, i < 3 ∧ t.intStatus.getLsbD i = true ∧ t.intEnable.getLsbD i = true)
    ∧ ∀ (s : State) (d : Word) (rest : List Input),
      (s.inputs = .host (.write .word 0x00C d) :: rest →
          ∃ t, step s = .next t ∧ t = { s with inputs := rest, intStatus := t.intStatus }
            ∧ ∀ i, i < 3 → t.intStatus.getLsbD i = (s.intStatus.getLsbD i && !d.getLsbD i))
        ∧ (s.inputs = .host (.write .word 0x010 d) :: rest →
            ∃ t, step s = .next t ∧ t = { s with inputs := rest, intEnable := t.intEnable }
              ∧ ∀ i, i < 3 → t.intEnable.getLsbD i = d.getLsbD i)

/-- BUSY rises only when a CMD write is accepted, and falls only in a completion or a reset (R137). -/
def Obligations.BusySpansAcceptanceToCompletion : Prop :=
  ∀ s t : State, step s = .next t →
    (s.busy = false → t.busy = true → ∃ d rest, s.inputs = .host (.write .word 0x040 d) :: rest ∧ t.cmdWord = d)
      ∧ (s.busy = true → t.busy = false →
          (∃ u rest, (s.inputs = [] ∧ rest = [] ∨ s.inputs = .datapath :: rest) ∧ execute (s.withInputs rest) = .next u ∧ t = u.complete)
            ∨ (∃ d rest, s.inputs = .host (.write .word 0x004 d) :: rest ∧ d.getLsbD 0 = true)
            ∨ ∃ rest, s.inputs = .powerOn :: rest)
      ∧ (s.busy = true → t.busy = true → t.cmdWord = s.cmdWord ∧ t.cmdCfg = s.cmdCfg)

/-- No step sets both OVR and CMD_DONE, OVR is set only by a host write that BUSY = 1 drops, and CMD_DONE only by a completion
(R27, R311). -/
def Obligations.EventFlagsHaveTheirOwnSteps : Prop :=
  ∀ s t : State, step s = .next t →
    (s.intStatus.getLsbD 0 = false → t.intStatus.getLsbD 0 = true →
        s.busy = true ∧ t.busy = false ∧ ∀ op rest, s.inputs ≠ .host op :: rest)
      ∧ (s.intStatus.getLsbD 2 = false → t.intStatus.getLsbD 2 = true →
          s.busy = true ∧ t.busy = true ∧ ∃ o d rest, s.inputs = .host (.write .word o d) :: rest ∧ (o = 0x040 ∨ 0x400 ≤ o))

/-! ## Registers and flags (10_state.md) -/

/-- The fields of STATUS, and that a write of it is ignored (R26). -/
def Obligations.StatusFields : Prop :=
  ∀ s : State,
    (readReg s .status).getLsbD 0 = s.busy ∧ (readReg s .status).getLsbD 1 = s.fActive
      ∧ ((readReg s .status).getLsbD 2 = true ↔ s.errCode.code ≠ 0)
      ∧ ((readReg s .status).getLsbD 3 = true ↔ s.geom.vbc ≠ 0 ∧ ∀ v : Fin 4, v.val < s.geom.vbc → (s.context v).state = .done)
      ∧ (readReg s .status).extractLsb' 4 4 = 0 ∧ (readReg s .status).extractLsb' 16 16 = 0
      ∧ (∀ v : Fin 4, (readReg s .status).extractLsb' (8 + 2 * v.val) 2 = (s.context v).state.code)
      ∧ CtxState.idle.code = 0 ∧ CtxState.run.code = 1 ∧ CtxState.done.code = 2 ∧ CtxState.failed.code = 3
      ∧ ∀ (d : Word) (rest : List Input), s.inputs = .host (.write .word 0x008 d) :: rest → step s = .next { s with inputs := rest }

/-- The states of a context change only as R31 lists: FRAME_START, RUN to DONE in an MB_DECODE on it, RUN to FAILED in an
MB_ABORT on it, and a reset. -/
def Obligations.ContextStateTransitions : Prop :=
  ∀ (s t : State) (v : Fin 4), s.Inv → step s = .next t → (t.context v).state ≠ (s.context v).state →
    (s.busy = true ∧ t.busy = false ∧
        (decode s.cmdWord = .ok .frameStart
          ∨ (∃ field, decode s.cmdWord = .ok (.mbDecode v field) ∧ (s.context v).state = .run ∧ (t.context v).state = .done)
          ∨ (decode s.cmdWord = .ok (.mbAbort v) ∧ (s.context v).state = .run ∧ (t.context v).state = .failed)))
      ∨ ((∃ d rest, s.inputs = .host (.write .word 0x004 d) :: rest ∧ d.getLsbD 0 = true) ∧ (t.context v).state = .idle)
      ∨ ((∃ rest, s.inputs = .powerOn :: rest) ∧ (t.context v).state = .idle)

/-! ## FRAME_START and the arrangement (41_arrangement.md) -/

/-- A FRAME_START whose two checks hold latches the frame from the configuration registers and changes nothing else (R160); and
the registers it reads are those that stood when the host's write of CMD was accepted, the model's choice (log 2). -/
def Obligations.FrameStartLatchesTheFrame : Prop :=
  (∀ (s : State) (d : Word) (rest : List Input), s.inputs = .host (.write .word 0x040 d) :: rest → s.busy = false →
    ∃ t, step s = .next t ∧ t.cmdWord = d ∧ t.cmdCfg = s.cfg)
  ∧ ∀ s : State, s.cfg.GeometryHolds → s.cfg.ResourceHolds →
    exec .frameStart (s.accept (encode .frameStart)) = .next { s with
      busy := true
      cmdWord := 0x00000001
      cmdCfg := s.cfg
      errCode := .none
      errVb := 0
      errMb := 0
      fActive := true
      frame := ⟨s.cfg.frameSize.extractLsb' 0 16, s.cfg.frameSize.extractLsb' 16 16,
        if s.cfg.frameMode.getLsbD 0 then .interlaced else .progressive, if s.cfg.frameMode.getLsbD 1 then .xrgb else .yuv422,
        s.cfg.destBase, s.cfg.destStride⟩
      geom := arrangement s.cfg.width.toNat s.cfg.height.toNat s.cfg.scan
      ctx := Vector.ofFn (initContext s.cfg.width.toNat s.cfg.height.toNat s.cfg.scan) }

/-- What a successful FRAME_START leaves in the GEOM and context registers (R165), with the configuration registers as they
stood when it was accepted, the model's choice (log 2). -/
def Obligations.FrameStartInitialisesTheContexts : Prop :=
  ∀ (s t : State) (v : Fin 4), s.cmdCfg.GeometryHolds → s.cmdCfg.ResourceHolds → exec .frameStart s = .next t →
    let w := s.cmdCfg.width.toNat
    let h := s.cmdCfg.height.toNat
    let g := arrangement w h s.cmdCfg.scan
    (readReg t .geomVbc).toNat = g.vbc ∧ (readReg t .geomPerLine).toNat = g.per ∧ (readReg t .geomTotal).toNat = g.total
      ∧ (readReg t .geomPadY).toNat = g.ps
      ∧ readReg t .geomStripY = (if g.strip = true then BitVec.ofNat 32 g.h16 else 0xFFFFFFFF)
      ∧ (readReg t (.ctxMbIdx v)).toNat = 0
      ∧ (v.val < g.vbc →
          (readReg t (.ctxMbCount v)).toNat = blockCount w h s.cmdCfg.scan v.val
            ∧ (t.context v).state = (if blockCount w h s.cmdCfg.scan v.val = 0 then .done else .run)
            ∧ (readReg t (.ctxPadPos v)).toNat = (padGrid g g.p[v.val]).2 * 65536 + (padGrid g g.p[v.val]).1)
      ∧ (g.vbc ≤ v.val → (readReg t (.ctxMbCount v)).toNat = 0 ∧ (t.context v).state = .idle ∧ (readReg t (.ctxPadPos v)).toNat = 0)

/-- A FRAME_START that fails a check leaves no frame geometry and its error, GEOMETRY before RESOURCE, whatever was recorded
before, and writes no destination byte (R163, R164). The checks read the configuration registers as they stood when the command
was accepted, the model's choice (log 2). -/
def Obligations.FailedFrameStartLeavesNoGeometry : Prop :=
  ∀ s : State,
    (¬ s.cmdCfg.GeometryHolds → ∃ t, exec .frameStart s = .next t ∧ t.NoGeometry ∧ t.errCode = .geometry ∧ t.errVb = 0 ∧ t.errMb = 0
        ∧ t = { s with fActive := t.fActive, geom := t.geom, frame := t.frame, ctx := t.ctx, errCode := t.errCode, errVb := t.errVb,
                       errMb := t.errMb, intStatus := s.intStatus ||| 0b010 })
      ∧ (s.cmdCfg.GeometryHolds → ¬ s.cmdCfg.ResourceHolds →
          ∃ t, exec .frameStart s = .next t ∧ t.NoGeometry ∧ t.errCode = .resource ∧ t.errVb = 0 ∧ t.errMb = 0
            ∧ t = { s with fActive := t.fActive, geom := t.geom, frame := t.frame, ctx := t.ctx, errCode := t.errCode, errVb := t.errVb,
                           errMb := t.errMb, intStatus := s.intStatus ||| 0b010 })

/-- The remainder of the macroblock count goes to blocks 1, 3, 2 in that order (R170). -/
def Obligations.RemainderGoesToBlocksOneThreeTwo : Prop :=
  ∀ w h : Nat,
    blockCount w h .progressive 0 = w * h / 256 / 2 ∧ blockCount w h .progressive 1 = w * h / 256 / 2 + w * h / 256 % 2
      ∧ blockCount w h .interlaced 0 = w * h / 256 / 4
      ∧ blockCount w h .interlaced 1 = w * h / 256 / 4 + (if 1 ≤ w * h / 256 % 4 then 1 else 0)
      ∧ blockCount w h .interlaced 3 = w * h / 256 / 4 + (if 2 ≤ w * h / 256 % 4 then 1 else 0)
      ∧ blockCount w h .interlaced 2 = w * h / 256 / 4 + (if 3 ≤ w * h / 256 % 4 then 1 else 0)
      ∧ (arrangement w h .progressive).vbc = 2 ∧ (arrangement w h .interlaced).vbc = 4
      ∧ ∀ scan, (arrangement w h scan).per = w / 16 ∧ (arrangement w h scan).total = w * h / 256

/-- PS is a multiple of VBC and less than VBC rows above H16, and the strip is recorded exactly for heights not a multiple of
16 (R171). -/
def Obligations.PaddingStartsAtAMultipleOfTheBlockCount : Prop :=
  ∀ (w h : Nat) (scan : Scan), geometryOk w h = true →
    let g := arrangement w h scan
    g.h16 = h / 16 ∧ (g.strip = true ↔ h % 16 = 8) ∧ g.ps = h / (16 * g.vbc) * g.vbc ∧ g.vbc ∣ g.ps ∧ g.ps ≤ g.h16
      ∧ g.h16 - g.ps < g.vbc

/-- The counts of the video blocks are consistent: each owns its normal region, together they own the frame's macroblocks,
their padding runs partition the padding region, and every macroblock lies inside the frame (R175). -/
def Obligations.CountsPartitionThePaddingRegion : Prop :=
  ∀ (w h : Nat) (scan : Scan), geometryOk w h = true →
    let g := arrangement w h scan
    let count := blockCount w h scan
    (∀ v, v < g.vbc → g.normal ≤ count v)
      ∧ ((List.range g.vbc).map count).sum = g.total
      ∧ g.total = g.h16 * g.per + stripCount w h
      ∧ (∀ p, p < g.padFull + stripCount w h →
          ∃! v : Fin 4, v.val < g.vbc ∧ g.p[v.val] ≤ p ∧ p < g.p[v.val] + (count v.val - g.normal))
      ∧ (∀ v : Fin 4, v.val < g.vbc → g.p[v.val] + (count v.val - g.normal) ≤ g.padFull + stripCount w h)
      ∧ ∀ (v : Fin 4) (i : Nat), v.val < g.vbc → i < count v.val →
          (mbPos g v i).x0 + (mbPos g v i).kind.width ≤ w ∧ (mbPos g v i).y0 + (mbPos g v i).kind.height ≤ h

/-- Coverage: for every valid frame the rectangles of all macroblocks of all video blocks tile the frame, no pixel left out
and none in two of them (R176). -/
def Obligations.MacroblocksTileTheFrame : Prop :=
  ∀ (w h : Nat) (scan : Scan), geometryOk w h = true → ∀ x y, x < w → y < h →
    ∃! m : Fin 4 × Nat, m.1.val < (arrangement w h scan).vbc ∧ m.2 < blockCount w h scan m.1.val
      ∧ (mbPos (arrangement w h scan) m.1 m.2).covers x y

/-- The last video block holds every strip macroblock exactly when its padding run is as long as the strip (R177). -/
def Obligations.LastBlockHoldsTheStripIffItsRunCoversIt : Prop :=
  ∀ (w h : Nat) (scan : Scan), geometryOk w h = true →
    ((∀ (v : Fin 4) (i : Nat), v.val + 1 < scan.vbc → i < blockCount w h scan v.val →
        (mbPos (arrangement w h scan) v i).kind = .std16)
      ↔ stripCount w h ≤ blockCount w h scan (scan.vbc - 1) - normalCount w h scan)

/-! ## MB_DECODE and placement (42_mb_decode.md, 20_memory.md) -/

/-- MB_DECODE and MB_ABORT make the same checks in the same order; the first that fails is recorded and nothing else happens
(R202, R263). -/
def Obligations.MacroblockCommandsCheckInOrder : Prop :=
  ∀ (s : State) (vb : Fin 4) (field : Bool) (i : Instr), i = .mbDecode vb field ∨ i = .mbAbort vb →
    (s.fActive = false → exec i s = .next (s.recordError .noFrame 0 0))
      ∧ (s.fActive = true → s.geom.vbc ≤ vb.val → exec i s = .next (s.recordError .vbRange (BitVec.ofNat 2 vb.val) 0))
      ∧ (s.fActive = true → vb.val < s.geom.vbc → (s.context vb).state = .failed →
          exec i s = .next (s.recordError .vbFailed (BitVec.ofNat 2 vb.val) (s.context vb).mbIdx))
      ∧ (s.fActive = true → vb.val < s.geom.vbc → (s.context vb).state = .done →
          exec i s = .next (s.recordError .vbDone (BitVec.ofNat 2 vb.val) (s.context vb).mbIdx))

/-- An MB_DECODE whose checks pass, with every coefficient written and every byte backed, completes: it writes the
macroblock's bytes, advances its context by one, moves it to DONE with the last macroblock, zeroes COEF if AUTO_CLEAR is set,
and changes nothing else (R201). -/
def Obligations.MbDecodePlacesOneMacroblock : Prop :=
  ∀ (s : State) (vb : Fin 4) (field : Bool), s.Runs vb → s.CoefWritten → s.Backed Config.idct vb field → s.raced = [] →
    exec (.mbDecode vb field) s = .next { s with
      mem := Memory.writeAll s.mem (s.mbWritesWith Config.idct vb field)
      ctx := s.ctx.set vb.val { s.context vb with
        mbIdx := (s.context vb).mbIdx + 1
        state := if (s.context vb).mbIdx + 1 = (s.context vb).mbCount then .done else (s.context vb).state }
      coef := if s.autoClear = true then Vector.replicate 512 (.written 0) else s.coef }

/-- The destination bytes after an MB_DECODE, for any inverse transform: outside the macroblock's writes every byte reads as
before; a byte it writes reads as written, but for a byte the host raced for, which ends with either value (R85, R201). -/
def Obligations.MbDecodeWritesExactlyItsBytes : Prop :=
  ∀ (s : State) (idct : Idct) (vb : Fin 4) (field : Bool), s.HasFrame → s.Runs vb → s.CoefWritten → s.Backed idct vb field →
    ∃ t, execMbDecodeWith idct vb field s = .next t
      ∧ (∀ a, (∀ v, (a, v) ∉ s.mbWritesWith idct vb field) → Memory.read t.mem a = Memory.read s.mem a)
      ∧ (∀ a v, (a, v) ∈ s.mbWritesWith idct vb field → a ∉ s.raced → Memory.read t.mem a = some v)
      ∧ (∀ a v, (a, v) ∈ s.mbWritesWith idct vb field → a ∈ s.raced →
          Memory.read t.mem a = some v ∨ Memory.read t.mem a = Memory.read s.mem a)

/-- No other context is read or written by MB_DECODE and MB_ABORT: giving another context any value changes neither whether
the command completes nor what it leaves (R201, R262). -/
def Obligations.MacroblockCommandsIgnoreOtherContexts : Prop :=
  ∀ (s : State) (vb w : Fin 4) (c : Context) (field : Bool) (i : Instr), w ≠ vb → i = .mbDecode vb field ∨ i = .mbAbort vb →
    exec i (s.setContext w c) = Outcome.onNext (exec i s) (fun t => .next (t.setContext w c))
      ∧ ∀ t, exec i s = .next t → t.context w = s.context w

/-- Where an MB_DECODE that passes its checks stops the model (R310): with some coefficient unwritten since power-on it is
the model fault UnwrittenCoefficient (R54); with a destination byte that is not ordinary memory, DestNotMemory (R72). -/
def Obligations.MbDecodeStopsOutsideTheSpec : Prop :=
  (∀ (s : State) (vb : Fin 4) (field : Bool) (n : Nat), s.Runs vb → n < 512 → s.coefEntry n = .unwritten →
      exec (.mbDecode vb field) s = .fault .unwrittenCoefficient)
    ∧ ∀ (s : State) (vb : Fin 4) (field : Bool) (a : Nat) (v : Byte), s.Runs vb → s.CoefWritten → s.raced = [] →
        (a, v) ∈ s.mbWritesWith Config.idct vb field → s.isMemory a = false →
        ∃ a', s.isMemory a' = false ∧ exec (.mbDecode vb field) s = .fault (.destNotMemory a')

/-- Regime selection: a strip macroblock is STRIP, a 16×16 one of an interlaced frame with FIELD = 1 is FIELD, every other is
STD; so FIELD changes nothing on a progressive frame or a strip macroblock (R207). -/
def Obligations.FieldBitMattersOnlyOnInterlacedFullMacroblocks : Prop :=
  (∀ (kind : MbKind) (scan : Scan) (field : Bool),
      (kind = .strip → regimeOf kind scan field = .strip)
        ∧ (kind = .std16 → scan = .interlaced → field = true → regimeOf kind scan field = .field)
        ∧ (kind = .std16 → scan = .progressive ∨ field = false → regimeOf kind scan field = .std))
    ∧ ∀ (s : State) (vb : Fin 4),
        s.frame.scan = .progressive ∨ (mbPos s.geom vb (s.context vb).mbIdx.toNat).kind = .strip →
        exec (.mbDecode vb true) s = exec (.mbDecode vb false) s

/-- The FIELD bit changes no register, context or count: two MB_DECODEs that differ only in it leave states that differ only
in destination memory and the model's draw counter (R214, log 4). -/
def Obligations.FieldBitChangesOnlyDestinationBytes : Prop :=
  ∀ (s t t' : State) (vb : Fin 4), exec (.mbDecode vb true) s = .next t → exec (.mbDecode vb false) s = .next t' →
    t' = { t with mem := t'.mem, draws := t'.draws }

/-- Per-macroblock bijection: in every regime each pixel of the rectangle shows exactly one luma sample and each chroma column
and line exactly one sample of each chroma component, and the arrays of the XRGB path hold those samples (R211, R240). -/
def Obligations.SamplesMapOneToOneOntoTheMacroblock : Prop :=
  ∀ (reg : Regime) (smp : Samples),
    (∀ dx dy, dx < reg.width → dy < reg.height →
        ∃! m : Nat × Nat × Nat, m.1 < 4 ∧ m.2.1 < 8 ∧ m.2.2 < 8 ∧ lumaXY reg m.1 m.2.1 m.2.2 = (dx, dy))
      ∧ (∀ k r c, k < 4 → r < 8 → c < 8 →
          (lumaXY reg k r c).1 < reg.width ∧ (lumaXY reg k r c).2 < reg.height
            ∧ ymb reg smp (lumaXY reg k r c).1 (lumaXY reg k r c).2 = smp k (8 * r + c))
      ∧ (∀ dxc dy, 2 * dxc < reg.width → dy < reg.height →
          ∃! m : Nat × Nat × Nat, m.1 < 2 ∧ m.2.1 < 8 ∧ m.2.2 < 8 ∧ chromaXY reg m.1 m.2.1 m.2.2 = (dxc, dy))
      ∧ (∀ j r c, j < 2 → r < 8 → c < 8 →
          2 * (chromaXY reg j r c).1 < reg.width ∧ (chromaXY reg j r c).2 < reg.height
            ∧ crmb reg smp (chromaXY reg j r c).1 (chromaXY reg j r c).2 = smp (4 + j) (8 * r + c)
            ∧ cbmb reg smp (chromaXY reg j r c).1 (chromaXY reg j r c).2 = smp (6 + j) (8 * r + c))

/-- The placement tables: where the regimes of R208, R209 and R210 put sample (r, c) of each block. -/
def Obligations.RegimePlacementTables : Prop :=
  ∀ r c j : Nat,
    lumaXY .std 0 r c = (c, r) ∧ lumaXY .std 1 r c = (c, 8 + r) ∧ lumaXY .std 2 r c = (8 + c, r) ∧ lumaXY .std 3 r c = (8 + c, 8 + r)
      ∧ lumaXY .field 0 r c = (c, 2 * r) ∧ lumaXY .field 1 r c = (c, 1 + 2 * r) ∧ lumaXY .field 2 r c = (8 + c, 2 * r)
      ∧ lumaXY .field 3 r c = (8 + c, 1 + 2 * r)
      ∧ lumaXY .strip 0 r c = (c, r) ∧ lumaXY .strip 1 r c = (16 + c, r) ∧ lumaXY .strip 2 r c = (8 + c, r)
      ∧ lumaXY .strip 3 r c = (24 + c, r)
      ∧ chromaXY .std j r c = (c, 8 * j + r) ∧ chromaXY .field j r c = (c, j + 2 * r) ∧ chromaXY .strip j r c = (8 * j + c, r)

/-- In YUV422 the writes are those of the eight block views of R213: sample (r, c) of block k goes to
`A_k + r·RS + c·bpp_k`, and there are 512 writes; a pixel pair is the four bytes Y, Cb, Y, Cr at ascending addresses from
`F_BASE + y·F_STRIDE + 4·xc` (R212, R74). -/
def Obligations.YuvWritesAreTheBlockViews : Prop :=
  ∀ (f : Latched) (reg : Regime) (x0 y0 : Nat) (smp : Samples), x0 % 2 = 0 →
    (∀ w : ByteAt, w ∈ yuvWrites f reg x0 y0 smp ↔
        ∃ k r c, k < 8 ∧ r < 8 ∧ c < 8
          ∧ w = ((blockView f reg x0 y0 k).1 + r * (blockView f reg x0 y0 k).2.2 + c * (blockView f reg x0 y0 k).2.1, smp k (8 * r + c)))
      ∧ (yuvWrites f reg x0 y0 smp).length = 512
      ∧ ∀ m dy : Nat, 2 * m < reg.width → dy < reg.height →
          let a := f.base.toNat + (y0 + dy) * f.stride.toNat + 4 * (x0 / 2 + m)
          (a, ymb reg smp (2 * m) dy) ∈ yuvWrites f reg x0 y0 smp
            ∧ (a + 1, cbmb reg smp m dy) ∈ yuvWrites f reg x0 y0 smp
            ∧ (a + 2, ymb reg smp (2 * m + 1) dy) ∈ yuvWrites f reg x0 y0 smp
            ∧ (a + 3, crmb reg smp m dy) ∈ yuvWrites f reg x0 y0 smp

/-- Every byte an MB_DECODE of a latched frame writes lies in the first `F_W·bpp` bytes of a line of the frame, at or above
F_BASE and below `F_BASE + F_STRIDE·F_H <= 2^32`, for any inverse transform (R81). -/
def Obligations.WritesStayInsideTheFrame : Prop :=
  ∀ (s : State) (idct : Idct) (vb : Fin 4) (field : Bool), s.HasFrame → s.Runs vb →
    s.frame.base.toNat + s.frame.stride.toNat * s.frame.h.toNat ≤ 2 ^ 32
      ∧ ∀ w ∈ s.mbWritesWith idct vb field,
          s.frame.ownsByte w.1 ∧ s.frame.base.toNat ≤ w.1
            ∧ w.1 < s.frame.base.toNat + s.frame.stride.toNat * s.frame.h.toNat

/-- Two MB_DECODEs of one latched frame, for different macroblocks, never write the same byte (R90). -/
def Obligations.DifferentMacroblocksWriteDisjointBytes : Prop :=
  ∀ (s t : State) (idct idct' : Idct) (vb vb' : Fin 4) (field field' : Bool),
    s.HasFrame → t.HasFrame → t.frame = s.frame → s.Runs vb → t.Runs vb' →
    (vb, (s.context vb).mbIdx) ≠ (vb', (t.context vb').mbIdx) →
    ∀ w ∈ s.mbWritesWith idct vb field, ∀ w' ∈ t.mbWritesWith idct' vb' field', w.1 ≠ w'.1

/-- The order of the writes of one command does not matter: an MB_DECODE of a latched frame writes no byte twice, and every
order leaves the same memory (R84). -/
def Obligations.WriteOrderWithinACommandDoesNotMatter : Prop :=
  ∀ (s : State) (idct : Idct) (vb : Fin 4) (field : Bool) (m : List Host.Cell) (ws : List ByteAt),
    s.HasFrame → s.Runs vb → Memory.wf m = true → ws.Perm (s.mbWritesWith idct vb field) →
    ((s.mbWritesWith idct vb field).map Prod.fst).Nodup
      ∧ Memory.writeAll m ws = Memory.writeAll m (s.mbWritesWith idct vb field)

/-- Constant-DC round trip: where every block is DC-only and the inverse transform answers a constant for it, each sample
position shows its block's constant, and with equal constants the rectangle is uniform in that component: luma, Cb and Cr
(R215). -/
def Obligations.ConstantDcBlocksFillTheirPixels : Prop :=
  ∀ (s t : State) (idct : Idct) (vb : Fin 4) (field : Bool) (d : Nat → Int) (v : Nat → Fin 256),
    s.HasFrame → s.Runs vb → s.raced = [] → s.frame.fmt = .yuv422 →
    (∀ k n, k < 8 → n < 64 → s.coefInt (64 * k + n) = if n = 0 then d k else 0) →
    (∀ k, k < 8 → IdctDcValue idct (d k) (v k)) →
    execMbDecodeWith idct vb field s = .next t → s.CoefWritten →
    let m := mbPos s.geom vb (s.context vb).mbIdx.toNat
    let reg := regimeOf m.kind s.frame.scan field
    (∀ k r c, k < 4 → r < 8 → c < 8 →
        Memory.read t.mem (lineAddr s.frame (m.y0 + (lumaXY reg k r c).2) + 2 * (m.x0 + (lumaXY reg k r c).1))
          = some (BitVec.ofNat 8 (v k).val))
      ∧ (∀ j r c, j < 2 → r < 8 → c < 8 →
          Memory.read t.mem (lineAddr s.frame (m.y0 + (chromaXY reg j r c).2) + 4 * (m.x0 / 2 + (chromaXY reg j r c).1) + 1)
              = some (BitVec.ofNat 8 (v (6 + j)).val)
            ∧ Memory.read t.mem (lineAddr s.frame (m.y0 + (chromaXY reg j r c).2) + 4 * (m.x0 / 2 + (chromaXY reg j r c).1) + 3)
              = some (BitVec.ofNat 8 (v (4 + j)).val))
      ∧ (v 0 = v 1 → v 0 = v 2 → v 0 = v 3 → ∀ dx dy, dx < reg.width → dy < reg.height →
          Memory.read t.mem (lineAddr s.frame (m.y0 + dy) + 2 * (m.x0 + dx)) = some (BitVec.ofNat 8 (v 0).val))
      ∧ (v 6 = v 7 → ∀ dxc dy, 2 * dxc < reg.width → dy < reg.height →
          Memory.read t.mem (lineAddr s.frame (m.y0 + dy) + 4 * (m.x0 / 2 + dxc) + 1) = some (BitVec.ofNat 8 (v 6).val))
      ∧ (v 4 = v 5 → ∀ dxc dy, 2 * dxc < reg.width → dy < reg.height →
          Memory.read t.mem (lineAddr s.frame (m.y0 + dy) + 4 * (m.x0 / 2 + dxc) + 3) = some (BitVec.ofNat 8 (v 4).val))

/-- The reference instance answers `clamp(floor(d/8 + 1/2), 0, 255)` at all 64 positions of a DC-only input (R205). -/
def Obligations.ReferenceTransformOfADcBlock : Prop :=
  ∀ (d : Int) (m : Fin 64), ((idctRef (dcOnly d) m).val : Int) = min (max ⌊(d : ℝ) / 8 + 1 / 2⌋ 0) 255

/-! ## Colour converter (43_xrgb.md) -/

/-- `WriteXRGB` writes, for each pixel of the macroblock and nothing else, B, G, R and 255 at ascending addresses, converted
from the pixel's luma and its pair's chroma (R241, R242, R245). -/
def Obligations.XrgbWritesFourBytesPerPixel : Prop :=
  ∀ (f : Latched) (reg : Regime) (x0 y0 : Nat) (smp : Samples),
    (∀ w : ByteAt, w ∈ xrgbWrites f reg x0 y0 smp ↔
        ∃ dx dy, dx < reg.width ∧ dy < reg.height ∧
          let a := f.base.toNat + (y0 + dy) * f.stride.toNat + 4 * (x0 + dx)
          let p := convert (ymb reg smp dx dy) (cbmb reg smp (dx / 2) dy) (crmb reg smp (dx / 2) dy)
          w = (a, p.b) ∨ w = (a + 1, p.g) ∨ w = (a + 2, p.r) ∨ w = (a + 3, 255))
      ∧ (xrgbWrites f reg x0 y0 smp).length = 1024

/-- The colour function is the fixed-point matrix of R242, whatever the rounding bias; and with RGB_BIAS = 0 its un-clipped
values stay in the ranges R243 gives, both ends of which are reached. -/
def Obligations.ConvertIsTheClampedMatrix : Prop :=
  (∀ (bias : Int) (y cb cr : Byte),
    let yp : Int := y.toNat - 16
    let u : Int := cb.toNat - 128
    let v : Int := cr.toNat - 128
    (((convertWith bias y cb cr).b.toNat : Int) = min (max ((1192 * yp + 2066 * u + bias) >>> (10 : Nat)) 0) 255)
      ∧ (((convertWith bias y cb cr).g.toNat : Int) = min (max ((1192 * yp - 400 * u - 833 * v + bias) >>> (10 : Nat)) 0) 255)
      ∧ (((convertWith bias y cb cr).r.toNat : Int) = min (max ((1192 * yp + 1634 * v + bias) >>> (10 : Nat)) 0) 255))
    ∧ (∀ y cb cr : Byte, convert y cb cr = convertWith 0 y cb cr
        ∧ -277 ≤ rawB 0 y.toNat cb.toNat ∧ rawB 0 y.toNat cb.toNat ≤ 534
        ∧ -172 ≤ rawG 0 y.toNat cb.toNat cr.toNat ∧ rawG 0 y.toNat cb.toNat cr.toNat ≤ 432
        ∧ -223 ≤ rawR 0 y.toNat cr.toNat ∧ rawR 0 y.toNat cr.toNat ≤ 480)
    ∧ (∃ y cb : Byte, rawB 0 y.toNat cb.toNat = -277) ∧ (∃ y cb : Byte, rawB 0 y.toNat cb.toNat = 534)
    ∧ (∃ y cb cr : Byte, rawG 0 y.toNat cb.toNat cr.toNat = -172) ∧ (∃ y cb cr : Byte, rawG 0 y.toNat cb.toNat cr.toNat = 432)
    ∧ (∃ y cr : Byte, rawR 0 y.toNat cr.toNat = -223) ∧ (∃ y cr : Byte, rawR 0 y.toNat cr.toNat = 480)

/-- What R247 lists of the colour function with RGB_BIAS = 0: black, near-white, the grey axis, and that every component is
monotone in each sample it depends on. -/
def Obligations.ConvertIsMonotone : Prop :=
  convert 16 128 128 = ⟨0, 0, 0⟩ ∧ convert 235 128 128 = ⟨254, 254, 254⟩
    ∧ (∀ y : Byte, (convert y 128 128).b = (convert y 128 128).g ∧ (convert y 128 128).g = (convert y 128 128).r
        ∧ ((convert y 128 128).b.toNat : Int) = min (max ((1192 * ((y.toNat : Int) - 16)) >>> (10 : Nat)) 0) 255
        ∧ (y.toNat ≤ 16 → (convert y 128 128).b = 0) ∧ (236 ≤ y.toNat → (convert y 128 128).b = 255))
    ∧ (∀ y y' cb cr : Byte, y.toNat ≤ y'.toNat →
        (convert y cb cr).b.toNat ≤ (convert y' cb cr).b.toNat ∧ (convert y cb cr).g.toNat ≤ (convert y' cb cr).g.toNat
          ∧ (convert y cb cr).r.toNat ≤ (convert y' cb cr).r.toNat)
    ∧ (∀ y cb cb' cr : Byte, cb.toNat ≤ cb'.toNat →
        (convert y cb cr).b.toNat ≤ (convert y cb' cr).b.toNat ∧ (convert y cb' cr).g.toNat ≤ (convert y cb cr).g.toNat
          ∧ (convert y cb cr).r = (convert y cb' cr).r)
    ∧ (∀ y cb cr cr' : Byte, cr.toNat ≤ cr'.toNat →
        (convert y cb cr).r.toNat ≤ (convert y cb cr').r.toNat ∧ (convert y cb cr').g.toNat ≤ (convert y cb cr).g.toNat
          ∧ (convert y cb cr).b = (convert y cb cr').b)

/-! ## Frame control (44_frame_control.md) -/

/-- NOP changes nothing of its own: its completion clears BUSY and sets CMD_DONE (R260). -/
def Obligations.NopOnlyCompletes : Prop :=
  ∀ (s : State) (rest : List Input),
    exec .nop s = .next s
      ∧ (s.busy = true → s.inputs = .datapath :: rest → s.cmdWord = 0x00000000 →
          step s = .next { s with inputs := rest, busy := false, intStatus := s.intStatus ||| 0b001, raced := [] })

/-- An MB_ABORT whose checks pass makes its context FAILED, keeps CTX_MBIDX, signals BITSTREAM with the video block and the
macroblock, zeroes COEF if AUTO_CLEAR is set, and changes nothing else: no destination byte, no other context (R262). -/
def Obligations.MbAbortFailsItsContext : Prop :=
  ∀ (s : State) (vb : Fin 4), s.Runs vb →
    exec (.mbAbort vb) s = .next { s with
      ctx := s.ctx.set vb.val { s.context vb with state := .failed }
      errCode := if s.errCode = .none then .bitstream else s.errCode
      errVb := if s.errCode = .none then BitVec.ofNat 2 vb.val else s.errVb
      errMb := if s.errCode = .none then (s.context vb).mbIdx else s.errMb
      intStatus := s.intStatus ||| 0b010
      coef := if s.autoClear = true then Vector.replicate 512 (.written 0) else s.coef }

/-- FRAME_END raises NO_FRAME with no frame; else it ends the frame, keeps the contexts and the geometry, and signals
INCOMPLETE for the least context still RUN, if there is one (R264). -/
def Obligations.FrameEndReportsTheLeastUnfinishedContext : Prop :=
  ∀ s : State,
    (s.fActive = false → exec .frameEnd s = .next (s.recordError .noFrame 0 0))
      ∧ (s.fActive = true → (∀ v : Fin 4, v.val < s.geom.vbc → (s.context v).state ≠ .run) →
          exec .frameEnd s = .next { s with fActive := false })
      ∧ (s.fActive = true → ∀ v : Fin 4, v.val < s.geom.vbc → (s.context v).state = .run →
          (∀ w : Fin 4, w.val < v.val → (s.context w).state ≠ .run) →
          exec .frameEnd s = .next { s with
            fActive := false
            errCode := if s.errCode = .none then .incomplete else s.errCode
            errVb := if s.errCode = .none then BitVec.ofNat 2 v.val else s.errVb
            errMb := if s.errCode = .none then (s.context v).mbIdx else s.errMb
            intStatus := s.intStatus ||| 0b010 })

/-- The contexts may be served in any interleaving: two lists of MB_DECODE and MB_ABORT commands, each with its coefficients,
that hold the same commands in the same order for every context leave the same destination bytes, contexts and geometry
(R266). -/
def Obligations.InterleavingOfContextsDoesNotMatter : Prop :=
  ∀ (s t : State) (l l' : List (Instr × Vector CoefEntry 512)),
    s.HasFrame → s.fActive = true → Memory.wf s.mem = true → s.raced = [] →
    (∀ c ∈ l, contextOf c.1 ≠ none) → (∀ c ∈ l', contextOf c.1 ≠ none) →
    (∀ v : Fin 4, l.filter (fun c => contextOf c.1 = some v) = l'.filter (fun c => contextOf c.1 = some v)) →
    s.issueAll l = .next t →
    ∃ t', s.issueAll l' = .next t' ∧ t'.mem = t.mem ∧ t'.ctx = t.ctx ∧ t'.geom = t.geom ∧ t'.frame = t.frame
      ∧ t'.fActive = t.fActive

/-! ## Errors (60_exceptions.md) -/

/-- Recording an error: the first since reset or FRAME_START is kept, INT_STATUS.ERR is set by every one, and nothing else
changes (R303). -/
def Obligations.OnlyTheFirstErrorIsRecorded : Prop :=
  (∀ (s : State) (code : ErrCode) (vb : BitVec 2) (mb : Word),
      (s.errCode.code = 0 → s.recordError code vb mb
          = { s with errCode := code, errVb := vb, errMb := mb, intStatus := s.intStatus ||| 0b010 })
        ∧ (s.errCode.code ≠ 0 → s.recordError code vb mb = { s with intStatus := s.intStatus ||| 0b010 }))
    ∧ ∀ (i : Instr) (s t : State), exec i s = .next t → i ≠ .frameStart → s.errCode ≠ .none →
        t.errCode = s.errCode ∧ t.errVb = s.errVb ∧ t.errMb = s.errMb

/-- The error record changes only in a completion, a FRAME_START's among them, and in a reset: a command sets it together
with INT_STATUS.ERR, and a reset, by a write of CTRL.SOFT_RESET or a power-on, clears it (R302, R303, R340, R341). -/
def Obligations.ErrorRecordChangesOnlyAtCompletion : Prop :=
  ∀ s t : State, step s = .next t → (t.errCode, t.errVb, t.errMb) ≠ (s.errCode, s.errVb, s.errMb) →
    (s.busy = true ∧ t.busy = false ∧ t.intStatus.getLsbD 0 = true
        ∧ (t.intStatus.getLsbD 1 = true ∨ decode s.cmdWord = .ok .frameStart))
      ∨ (((∃ d rest, s.inputs = .host (.write .word 0x004 d) :: rest ∧ d.getLsbD 0 = true) ∨ ∃ rest, s.inputs = .powerOn :: rest)
        ∧ t.errCode = .none ∧ t.errVb = 0 ∧ t.errMb = 0)

/-! ## Reset (70_reset_and_hazards.md) -/

/-- A power-on reset enters the reset state, with every coefficient unwritten, and leaves destination memory alone while no
command is in flight (R340). With one in flight each byte it would have written ends old or new, the model's choice (log 9),
and every other byte is unchanged. -/
def Obligations.PowerOnEntersTheResetState : Prop :=
  State.reset.BlockIsReset .unwritten ∧ State.reset.mem = []
    ∧ ∀ (s : State) (rest : List Input), s.inputs = .powerOn :: rest → (∀ w ∈ s.pendingWrites, s.isMemory w.1 = true) →
        ∃ t, step s = .next t ∧ t.BlockIsReset .unwritten ∧ t.inputs = rest ∧ t.destMap = s.destMap
          ∧ (s.busy = false → t.mem = s.mem)
          ∧ ∀ a, Memory.read t.mem a = Memory.read s.mem a
              ∨ ∃ v, (a, v) ∈ s.pendingWrites ∧ Memory.read t.mem a = some v

/-- A soft reset, idle or with a command in flight, leaves every register at its reset value and COEF all zero and written;
a destination byte the aborted command would have written ends old or new, and every other byte is unchanged (R341, R342). -/
def Obligations.SoftResetAbortsTheCommandInFlight : Prop :=
  ∀ (s : State) (d : Word) (rest : List Input), s.inputs = .host (.write .word 0x004 d) :: rest → d.getLsbD 0 = true →
    (∀ w ∈ s.pendingWrites, s.isMemory w.1 = true) →
    ∃ t, step s = .next t ∧ t.BlockIsReset (.written 0) ∧ t.inputs = rest ∧ t.destMap = s.destMap ∧ t.response = s.response
      ∧ (s.busy = false → t.mem = s.mem)
      ∧ ∀ a, Memory.read t.mem a = Memory.read s.mem a
          ∨ ∃ v, (a, v) ∈ s.pendingWrites ∧ Memory.read t.mem a = some v

/-- A write of CTRL without SOFT_RESET sets AUTO_CLEAR and nothing else, whatever BUSY is (R143). -/
def Obligations.ControlWriteSetsAutoClear : Prop :=
  ∀ (s : State) (d : Word) (rest : List Input), s.inputs = .host (.write .word 0x004 d) :: rest → d.getLsbD 0 = false →
    step s = .next { s with inputs := rest, autoClear := d.getLsbD 1 }
      ∧ (readReg { s with autoClear := d.getLsbD 1 } .ctrl).toNat = (if d.getLsbD 1 = true then 2 else 0)

/-! ## Destination memory and races (20_memory.md) -/

/-- A host load of a byte that the command in flight writes answers the old byte or the command's, and of any other byte the
byte that is there; it changes nothing but the answer and the model's draw counter (R85, log 6). -/
def Obligations.RacingLoadSeesOldOrNew : Prop :=
  ∀ (s : State) (a : Word) (rest : List Input), s.inputs = .host (.load a) :: rest → s.isMemory a.toNat = true →
    ∃ t v, step s = .next t ∧ t = { s with inputs := rest, response := .byte v, draws := t.draws }
      ∧ (v = Memory.byte s.mem a.toNat ∨ (a.toNat, v) ∈ s.pendingWrites)

/-- A host store writes its byte and no other; while a command is in flight the model remembers that it raced (R85, log 6). -/
def Obligations.HostStoreWritesOneByte : Prop :=
  ∀ (s : State) (a : Word) (v : Byte) (rest : List Input), s.inputs = .host (.store a v) :: rest → s.isMemory a.toNat = true →
    ∃ t, step s = .next t ∧ t = { s with inputs := rest, mem := t.mem, raced := t.raced }
      ∧ Memory.read t.mem a.toNat = some v ∧ (∀ b, b ≠ a.toNat → Memory.read t.mem b = Memory.read s.mem b)
      ∧ (s.busy = true → a.toNat ∈ t.raced) ∧ (s.busy = false → t.raced = s.raced)

/-- Only three things change a byte of destination memory: the completion of an MB_DECODE that writes it, a reset that aborts
one, and a host store to it (R70, R83, R343). -/
def Obligations.OnlyMbDecodeAndStoresChangeMemory : Prop :=
  ∀ (s t : State) (a : Nat), step s = .next t → Memory.read t.mem a ≠ Memory.read s.mem a →
    (∃ v, (a, v) ∈ s.pendingWrites ∧ s.busy = true ∧ t.busy = false ∧ Memory.read t.mem a = some v)
      ∨ ∃ b v rest, s.inputs = .host (.store b v) :: rest ∧ b.toNat = a ∧ Memory.read t.mem a = some v

/-- Every step keeps the canonical form of destination memory. -/
def Obligations.StepKeepsMemoryCanonical : Prop :=
  ∀ s t : State, Memory.wf s.mem = true → step s = .next t → Memory.wf t.mem = true

/-! ## The invariant -/

/-- The state after reset meets the invariant. -/
def Obligations.ResetMeetsTheInvariant : Prop := State.reset.Inv

/-- Every step keeps the invariant: memory canonical, either no geometry or a sound latched frame whose contexts count their
macroblocks and never pass their last, an empty error record reading 0, and races only with a command in flight. -/
def Obligations.StepKeepsTheInvariant : Prop := ∀ s t : State, s.Inv → step s = .next t → t.Inv

/-! ## Host programs (30_encoding.md) -/

/-- Run on an idle block, `LDBLK k, c0, …, c63` leaves `c_n` in entry `64k + n` and every other entry as it was (R109). -/
def Obligations.LoadBlockFillsOneBlock : Prop :=
  ∀ (s : State) (k : Nat) (c : Nat → Half), k < 8 → s.busy = false →
    ∃ t, s.runHost (ldblkOps k c) = .next t ∧ t = { s with coef := t.coef }
      ∧ (∀ n, n < 64 → t.coefEntry (64 * k + n) = .written (c n))
      ∧ ∀ n, n < 64 * k ∨ 64 * k + 64 ≤ n → t.coefEntry n = s.coefEntry n
end

