-- ==== Sys2Proof/Laws/State.lean ====
section
/-! SUPPORT. What each update of the state leaves in each field: one lemma for a field and an update, so that no proof
unfolds a record update. -/

namespace Sys2Proof.Machine

/-! ## setContext -/

@[simp] theorem State.setContext_autoClear (s : State) (v : Fin 4) (c : Context) : (s.setContext v c).autoClear = s.autoClear := rfl
@[simp] theorem State.setContext_intStatus (s : State) (v : Fin 4) (c : Context) : (s.setContext v c).intStatus = s.intStatus := rfl
@[simp] theorem State.setContext_intEnable (s : State) (v : Fin 4) (c : Context) : (s.setContext v c).intEnable = s.intEnable := rfl
@[simp] theorem State.setContext_cfg (s : State) (v : Fin 4) (c : Context) : (s.setContext v c).cfg = s.cfg := rfl
@[simp] theorem State.setContext_errCode (s : State) (v : Fin 4) (c : Context) : (s.setContext v c).errCode = s.errCode := rfl
@[simp] theorem State.setContext_errVb (s : State) (v : Fin 4) (c : Context) : (s.setContext v c).errVb = s.errVb := rfl
@[simp] theorem State.setContext_errMb (s : State) (v : Fin 4) (c : Context) : (s.setContext v c).errMb = s.errMb := rfl
@[simp] theorem State.setContext_busy (s : State) (v : Fin 4) (c : Context) : (s.setContext v c).busy = s.busy := rfl
@[simp] theorem State.setContext_cmdWord (s : State) (v : Fin 4) (c : Context) : (s.setContext v c).cmdWord = s.cmdWord := rfl
@[simp] theorem State.setContext_cmdCfg (s : State) (v : Fin 4) (c : Context) : (s.setContext v c).cmdCfg = s.cmdCfg := rfl
@[simp] theorem State.setContext_fActive (s : State) (v : Fin 4) (c : Context) : (s.setContext v c).fActive = s.fActive := rfl
@[simp] theorem State.setContext_frame (s : State) (v : Fin 4) (c : Context) : (s.setContext v c).frame = s.frame := rfl
@[simp] theorem State.setContext_geom (s : State) (v : Fin 4) (c : Context) : (s.setContext v c).geom = s.geom := rfl
@[simp] theorem State.setContext_ctx (s : State) (v : Fin 4) (c : Context) : (s.setContext v c).ctx = s.ctx.set v.val c := rfl
@[simp] theorem State.setContext_coef (s : State) (v : Fin 4) (c : Context) : (s.setContext v c).coef = s.coef := rfl
@[simp] theorem State.setContext_mem (s : State) (v : Fin 4) (c : Context) : (s.setContext v c).mem = s.mem := rfl
@[simp] theorem State.setContext_destMap (s : State) (v : Fin 4) (c : Context) : (s.setContext v c).destMap = s.destMap := rfl
@[simp] theorem State.setContext_inputs (s : State) (v : Fin 4) (c : Context) : (s.setContext v c).inputs = s.inputs := rfl
@[simp] theorem State.setContext_response (s : State) (v : Fin 4) (c : Context) : (s.setContext v c).response = s.response := rfl
@[simp] theorem State.setContext_raced (s : State) (v : Fin 4) (c : Context) : (s.setContext v c).raced = s.raced := rfl
@[simp] theorem State.setContext_draws (s : State) (v : Fin 4) (c : Context) : (s.setContext v c).draws = s.draws := rfl

/-! ## clearCoef -/

@[simp] theorem State.clearCoef_autoClear (s : State) : s.clearCoef.autoClear = s.autoClear := rfl
@[simp] theorem State.clearCoef_intStatus (s : State) : s.clearCoef.intStatus = s.intStatus := rfl
@[simp] theorem State.clearCoef_intEnable (s : State) : s.clearCoef.intEnable = s.intEnable := rfl
@[simp] theorem State.clearCoef_cfg (s : State) : s.clearCoef.cfg = s.cfg := rfl
@[simp] theorem State.clearCoef_errCode (s : State) : s.clearCoef.errCode = s.errCode := rfl
@[simp] theorem State.clearCoef_errVb (s : State) : s.clearCoef.errVb = s.errVb := rfl
@[simp] theorem State.clearCoef_errMb (s : State) : s.clearCoef.errMb = s.errMb := rfl
@[simp] theorem State.clearCoef_busy (s : State) : s.clearCoef.busy = s.busy := rfl
@[simp] theorem State.clearCoef_cmdWord (s : State) : s.clearCoef.cmdWord = s.cmdWord := rfl
@[simp] theorem State.clearCoef_cmdCfg (s : State) : s.clearCoef.cmdCfg = s.cmdCfg := rfl
@[simp] theorem State.clearCoef_fActive (s : State) : s.clearCoef.fActive = s.fActive := rfl
@[simp] theorem State.clearCoef_frame (s : State) : s.clearCoef.frame = s.frame := rfl
@[simp] theorem State.clearCoef_geom (s : State) : s.clearCoef.geom = s.geom := rfl
@[simp] theorem State.clearCoef_ctx (s : State) : s.clearCoef.ctx = s.ctx := rfl
@[simp] theorem State.clearCoef_coef (s : State) : s.clearCoef.coef = Vector.replicate 512 (CoefEntry.written 0) := rfl
@[simp] theorem State.clearCoef_mem (s : State) : s.clearCoef.mem = s.mem := rfl
@[simp] theorem State.clearCoef_destMap (s : State) : s.clearCoef.destMap = s.destMap := rfl
@[simp] theorem State.clearCoef_inputs (s : State) : s.clearCoef.inputs = s.inputs := rfl
@[simp] theorem State.clearCoef_response (s : State) : s.clearCoef.response = s.response := rfl
@[simp] theorem State.clearCoef_raced (s : State) : s.clearCoef.raced = s.raced := rfl
@[simp] theorem State.clearCoef_draws (s : State) : s.clearCoef.draws = s.draws := rfl

/-! ## autoClearCoef -/

@[simp] theorem State.autoClearCoef_autoClear (s : State) : s.autoClearCoef.autoClear = s.autoClear := rfl
@[simp] theorem State.autoClearCoef_intStatus (s : State) : s.autoClearCoef.intStatus = s.intStatus := rfl
@[simp] theorem State.autoClearCoef_intEnable (s : State) : s.autoClearCoef.intEnable = s.intEnable := rfl
@[simp] theorem State.autoClearCoef_cfg (s : State) : s.autoClearCoef.cfg = s.cfg := rfl
@[simp] theorem State.autoClearCoef_errCode (s : State) : s.autoClearCoef.errCode = s.errCode := rfl
@[simp] theorem State.autoClearCoef_errVb (s : State) : s.autoClearCoef.errVb = s.errVb := rfl
@[simp] theorem State.autoClearCoef_errMb (s : State) : s.autoClearCoef.errMb = s.errMb := rfl
@[simp] theorem State.autoClearCoef_busy (s : State) : s.autoClearCoef.busy = s.busy := rfl
@[simp] theorem State.autoClearCoef_cmdWord (s : State) : s.autoClearCoef.cmdWord = s.cmdWord := rfl
@[simp] theorem State.autoClearCoef_cmdCfg (s : State) : s.autoClearCoef.cmdCfg = s.cmdCfg := rfl
@[simp] theorem State.autoClearCoef_fActive (s : State) : s.autoClearCoef.fActive = s.fActive := rfl
@[simp] theorem State.autoClearCoef_frame (s : State) : s.autoClearCoef.frame = s.frame := rfl
@[simp] theorem State.autoClearCoef_geom (s : State) : s.autoClearCoef.geom = s.geom := rfl
@[simp] theorem State.autoClearCoef_ctx (s : State) : s.autoClearCoef.ctx = s.ctx := rfl
@[simp] theorem State.autoClearCoef_coef (s : State) : s.autoClearCoef.coef = if s.autoClear then Vector.replicate 512 (CoefEntry.written 0) else s.coef := rfl
@[simp] theorem State.autoClearCoef_mem (s : State) : s.autoClearCoef.mem = s.mem := rfl
@[simp] theorem State.autoClearCoef_destMap (s : State) : s.autoClearCoef.destMap = s.destMap := rfl
@[simp] theorem State.autoClearCoef_inputs (s : State) : s.autoClearCoef.inputs = s.inputs := rfl
@[simp] theorem State.autoClearCoef_response (s : State) : s.autoClearCoef.response = s.response := rfl
@[simp] theorem State.autoClearCoef_raced (s : State) : s.autoClearCoef.raced = s.raced := rfl
@[simp] theorem State.autoClearCoef_draws (s : State) : s.autoClearCoef.draws = s.draws := rfl

/-! ## storeCoefWord -/

@[simp] theorem State.storeCoefWord_autoClear (s : State) (j : Nat) (d : Word) : (s.storeCoefWord j d).autoClear = s.autoClear := rfl
@[simp] theorem State.storeCoefWord_intStatus (s : State) (j : Nat) (d : Word) : (s.storeCoefWord j d).intStatus = s.intStatus := rfl
@[simp] theorem State.storeCoefWord_intEnable (s : State) (j : Nat) (d : Word) : (s.storeCoefWord j d).intEnable = s.intEnable := rfl
@[simp] theorem State.storeCoefWord_cfg (s : State) (j : Nat) (d : Word) : (s.storeCoefWord j d).cfg = s.cfg := rfl
@[simp] theorem State.storeCoefWord_errCode (s : State) (j : Nat) (d : Word) : (s.storeCoefWord j d).errCode = s.errCode := rfl
@[simp] theorem State.storeCoefWord_errVb (s : State) (j : Nat) (d : Word) : (s.storeCoefWord j d).errVb = s.errVb := rfl
@[simp] theorem State.storeCoefWord_errMb (s : State) (j : Nat) (d : Word) : (s.storeCoefWord j d).errMb = s.errMb := rfl
@[simp] theorem State.storeCoefWord_busy (s : State) (j : Nat) (d : Word) : (s.storeCoefWord j d).busy = s.busy := rfl
@[simp] theorem State.storeCoefWord_cmdWord (s : State) (j : Nat) (d : Word) : (s.storeCoefWord j d).cmdWord = s.cmdWord := rfl
@[simp] theorem State.storeCoefWord_cmdCfg (s : State) (j : Nat) (d : Word) : (s.storeCoefWord j d).cmdCfg = s.cmdCfg := rfl
@[simp] theorem State.storeCoefWord_fActive (s : State) (j : Nat) (d : Word) : (s.storeCoefWord j d).fActive = s.fActive := rfl
@[simp] theorem State.storeCoefWord_frame (s : State) (j : Nat) (d : Word) : (s.storeCoefWord j d).frame = s.frame := rfl
@[simp] theorem State.storeCoefWord_geom (s : State) (j : Nat) (d : Word) : (s.storeCoefWord j d).geom = s.geom := rfl
@[simp] theorem State.storeCoefWord_ctx (s : State) (j : Nat) (d : Word) : (s.storeCoefWord j d).ctx = s.ctx := rfl
@[simp] theorem State.storeCoefWord_coef (s : State) (j : Nat) (d : Word) : (s.storeCoefWord j d).coef = (s.coef.setIfInBounds (2 * j) (.written (d.extractLsb' 0 16))).setIfInBounds (2 * j + 1) (.written (d.extractLsb' 16 16)) := rfl
@[simp] theorem State.storeCoefWord_mem (s : State) (j : Nat) (d : Word) : (s.storeCoefWord j d).mem = s.mem := rfl
@[simp] theorem State.storeCoefWord_destMap (s : State) (j : Nat) (d : Word) : (s.storeCoefWord j d).destMap = s.destMap := rfl
@[simp] theorem State.storeCoefWord_inputs (s : State) (j : Nat) (d : Word) : (s.storeCoefWord j d).inputs = s.inputs := rfl
@[simp] theorem State.storeCoefWord_response (s : State) (j : Nat) (d : Word) : (s.storeCoefWord j d).response = s.response := rfl
@[simp] theorem State.storeCoefWord_raced (s : State) (j : Nat) (d : Word) : (s.storeCoefWord j d).raced = s.raced := rfl
@[simp] theorem State.storeCoefWord_draws (s : State) (j : Nat) (d : Word) : (s.storeCoefWord j d).draws = s.draws := rfl

/-! ## withInputs -/

@[simp] theorem State.withInputs_autoClear (s : State) (rest : List Input) : (s.withInputs rest).autoClear = s.autoClear := rfl
@[simp] theorem State.withInputs_intStatus (s : State) (rest : List Input) : (s.withInputs rest).intStatus = s.intStatus := rfl
@[simp] theorem State.withInputs_intEnable (s : State) (rest : List Input) : (s.withInputs rest).intEnable = s.intEnable := rfl
@[simp] theorem State.withInputs_cfg (s : State) (rest : List Input) : (s.withInputs rest).cfg = s.cfg := rfl
@[simp] theorem State.withInputs_errCode (s : State) (rest : List Input) : (s.withInputs rest).errCode = s.errCode := rfl
@[simp] theorem State.withInputs_errVb (s : State) (rest : List Input) : (s.withInputs rest).errVb = s.errVb := rfl
@[simp] theorem State.withInputs_errMb (s : State) (rest : List Input) : (s.withInputs rest).errMb = s.errMb := rfl
@[simp] theorem State.withInputs_busy (s : State) (rest : List Input) : (s.withInputs rest).busy = s.busy := rfl
@[simp] theorem State.withInputs_cmdWord (s : State) (rest : List Input) : (s.withInputs rest).cmdWord = s.cmdWord := rfl
@[simp] theorem State.withInputs_cmdCfg (s : State) (rest : List Input) : (s.withInputs rest).cmdCfg = s.cmdCfg := rfl
@[simp] theorem State.withInputs_fActive (s : State) (rest : List Input) : (s.withInputs rest).fActive = s.fActive := rfl
@[simp] theorem State.withInputs_frame (s : State) (rest : List Input) : (s.withInputs rest).frame = s.frame := rfl
@[simp] theorem State.withInputs_geom (s : State) (rest : List Input) : (s.withInputs rest).geom = s.geom := rfl
@[simp] theorem State.withInputs_ctx (s : State) (rest : List Input) : (s.withInputs rest).ctx = s.ctx := rfl
@[simp] theorem State.withInputs_coef (s : State) (rest : List Input) : (s.withInputs rest).coef = s.coef := rfl
@[simp] theorem State.withInputs_mem (s : State) (rest : List Input) : (s.withInputs rest).mem = s.mem := rfl
@[simp] theorem State.withInputs_destMap (s : State) (rest : List Input) : (s.withInputs rest).destMap = s.destMap := rfl
@[simp] theorem State.withInputs_inputs (s : State) (rest : List Input) : (s.withInputs rest).inputs = rest := rfl
@[simp] theorem State.withInputs_response (s : State) (rest : List Input) : (s.withInputs rest).response = s.response := rfl
@[simp] theorem State.withInputs_raced (s : State) (rest : List Input) : (s.withInputs rest).raced = s.raced := rfl
@[simp] theorem State.withInputs_draws (s : State) (rest : List Input) : (s.withInputs rest).draws = s.draws := rfl

/-! ## respond -/

@[simp] theorem State.respond_autoClear (s : State) (r : Response) : (s.respond r).autoClear = s.autoClear := rfl
@[simp] theorem State.respond_intStatus (s : State) (r : Response) : (s.respond r).intStatus = s.intStatus := rfl
@[simp] theorem State.respond_intEnable (s : State) (r : Response) : (s.respond r).intEnable = s.intEnable := rfl
@[simp] theorem State.respond_cfg (s : State) (r : Response) : (s.respond r).cfg = s.cfg := rfl
@[simp] theorem State.respond_errCode (s : State) (r : Response) : (s.respond r).errCode = s.errCode := rfl
@[simp] theorem State.respond_errVb (s : State) (r : Response) : (s.respond r).errVb = s.errVb := rfl
@[simp] theorem State.respond_errMb (s : State) (r : Response) : (s.respond r).errMb = s.errMb := rfl
@[simp] theorem State.respond_busy (s : State) (r : Response) : (s.respond r).busy = s.busy := rfl
@[simp] theorem State.respond_cmdWord (s : State) (r : Response) : (s.respond r).cmdWord = s.cmdWord := rfl
@[simp] theorem State.respond_cmdCfg (s : State) (r : Response) : (s.respond r).cmdCfg = s.cmdCfg := rfl
@[simp] theorem State.respond_fActive (s : State) (r : Response) : (s.respond r).fActive = s.fActive := rfl
@[simp] theorem State.respond_frame (s : State) (r : Response) : (s.respond r).frame = s.frame := rfl
@[simp] theorem State.respond_geom (s : State) (r : Response) : (s.respond r).geom = s.geom := rfl
@[simp] theorem State.respond_ctx (s : State) (r : Response) : (s.respond r).ctx = s.ctx := rfl
@[simp] theorem State.respond_coef (s : State) (r : Response) : (s.respond r).coef = s.coef := rfl
@[simp] theorem State.respond_mem (s : State) (r : Response) : (s.respond r).mem = s.mem := rfl
@[simp] theorem State.respond_destMap (s : State) (r : Response) : (s.respond r).destMap = s.destMap := rfl
@[simp] theorem State.respond_inputs (s : State) (r : Response) : (s.respond r).inputs = s.inputs := rfl
@[simp] theorem State.respond_response (s : State) (r : Response) : (s.respond r).response = r := rfl
@[simp] theorem State.respond_raced (s : State) (r : Response) : (s.respond r).raced = s.raced := rfl
@[simp] theorem State.respond_draws (s : State) (r : Response) : (s.respond r).draws = s.draws := rfl

/-! ## spend -/

@[simp] theorem State.spend_autoClear (s : State) (n : Nat) : (s.spend n).autoClear = s.autoClear := rfl
@[simp] theorem State.spend_intStatus (s : State) (n : Nat) : (s.spend n).intStatus = s.intStatus := rfl
@[simp] theorem State.spend_intEnable (s : State) (n : Nat) : (s.spend n).intEnable = s.intEnable := rfl
@[simp] theorem State.spend_cfg (s : State) (n : Nat) : (s.spend n).cfg = s.cfg := rfl
@[simp] theorem State.spend_errCode (s : State) (n : Nat) : (s.spend n).errCode = s.errCode := rfl
@[simp] theorem State.spend_errVb (s : State) (n : Nat) : (s.spend n).errVb = s.errVb := rfl
@[simp] theorem State.spend_errMb (s : State) (n : Nat) : (s.spend n).errMb = s.errMb := rfl
@[simp] theorem State.spend_busy (s : State) (n : Nat) : (s.spend n).busy = s.busy := rfl
@[simp] theorem State.spend_cmdWord (s : State) (n : Nat) : (s.spend n).cmdWord = s.cmdWord := rfl
@[simp] theorem State.spend_cmdCfg (s : State) (n : Nat) : (s.spend n).cmdCfg = s.cmdCfg := rfl
@[simp] theorem State.spend_fActive (s : State) (n : Nat) : (s.spend n).fActive = s.fActive := rfl
@[simp] theorem State.spend_frame (s : State) (n : Nat) : (s.spend n).frame = s.frame := rfl
@[simp] theorem State.spend_geom (s : State) (n : Nat) : (s.spend n).geom = s.geom := rfl
@[simp] theorem State.spend_ctx (s : State) (n : Nat) : (s.spend n).ctx = s.ctx := rfl
@[simp] theorem State.spend_coef (s : State) (n : Nat) : (s.spend n).coef = s.coef := rfl
@[simp] theorem State.spend_mem (s : State) (n : Nat) : (s.spend n).mem = s.mem := rfl
@[simp] theorem State.spend_destMap (s : State) (n : Nat) : (s.spend n).destMap = s.destMap := rfl
@[simp] theorem State.spend_inputs (s : State) (n : Nat) : (s.spend n).inputs = s.inputs := rfl
@[simp] theorem State.spend_response (s : State) (n : Nat) : (s.spend n).response = s.response := rfl
@[simp] theorem State.spend_raced (s : State) (n : Nat) : (s.spend n).raced = s.raced := rfl
@[simp] theorem State.spend_draws (s : State) (n : Nat) : (s.spend n).draws = s.draws + n := rfl

/-! ## recordError -/

@[simp] theorem State.recordError_autoClear (s : State) (code : ErrCode) (vb : BitVec 2) (mb : Word) : (s.recordError code vb mb).autoClear = s.autoClear := rfl
@[simp] theorem State.recordError_intStatus (s : State) (code : ErrCode) (vb : BitVec 2) (mb : Word) : (s.recordError code vb mb).intStatus = s.intStatus ||| intErr := rfl
@[simp] theorem State.recordError_intEnable (s : State) (code : ErrCode) (vb : BitVec 2) (mb : Word) : (s.recordError code vb mb).intEnable = s.intEnable := rfl
@[simp] theorem State.recordError_cfg (s : State) (code : ErrCode) (vb : BitVec 2) (mb : Word) : (s.recordError code vb mb).cfg = s.cfg := rfl
@[simp] theorem State.recordError_errCode (s : State) (code : ErrCode) (vb : BitVec 2) (mb : Word) : (s.recordError code vb mb).errCode = if s.errCode = .none then code else s.errCode := rfl
@[simp] theorem State.recordError_errVb (s : State) (code : ErrCode) (vb : BitVec 2) (mb : Word) : (s.recordError code vb mb).errVb = if s.errCode = .none then vb else s.errVb := rfl
@[simp] theorem State.recordError_errMb (s : State) (code : ErrCode) (vb : BitVec 2) (mb : Word) : (s.recordError code vb mb).errMb = if s.errCode = .none then mb else s.errMb := rfl
@[simp] theorem State.recordError_busy (s : State) (code : ErrCode) (vb : BitVec 2) (mb : Word) : (s.recordError code vb mb).busy = s.busy := rfl
@[simp] theorem State.recordError_cmdWord (s : State) (code : ErrCode) (vb : BitVec 2) (mb : Word) : (s.recordError code vb mb).cmdWord = s.cmdWord := rfl
@[simp] theorem State.recordError_cmdCfg (s : State) (code : ErrCode) (vb : BitVec 2) (mb : Word) : (s.recordError code vb mb).cmdCfg = s.cmdCfg := rfl
@[simp] theorem State.recordError_fActive (s : State) (code : ErrCode) (vb : BitVec 2) (mb : Word) : (s.recordError code vb mb).fActive = s.fActive := rfl
@[simp] theorem State.recordError_frame (s : State) (code : ErrCode) (vb : BitVec 2) (mb : Word) : (s.recordError code vb mb).frame = s.frame := rfl
@[simp] theorem State.recordError_geom (s : State) (code : ErrCode) (vb : BitVec 2) (mb : Word) : (s.recordError code vb mb).geom = s.geom := rfl
@[simp] theorem State.recordError_ctx (s : State) (code : ErrCode) (vb : BitVec 2) (mb : Word) : (s.recordError code vb mb).ctx = s.ctx := rfl
@[simp] theorem State.recordError_coef (s : State) (code : ErrCode) (vb : BitVec 2) (mb : Word) : (s.recordError code vb mb).coef = s.coef := rfl
@[simp] theorem State.recordError_mem (s : State) (code : ErrCode) (vb : BitVec 2) (mb : Word) : (s.recordError code vb mb).mem = s.mem := rfl
@[simp] theorem State.recordError_destMap (s : State) (code : ErrCode) (vb : BitVec 2) (mb : Word) : (s.recordError code vb mb).destMap = s.destMap := rfl
@[simp] theorem State.recordError_inputs (s : State) (code : ErrCode) (vb : BitVec 2) (mb : Word) : (s.recordError code vb mb).inputs = s.inputs := rfl
@[simp] theorem State.recordError_response (s : State) (code : ErrCode) (vb : BitVec 2) (mb : Word) : (s.recordError code vb mb).response = s.response := rfl
@[simp] theorem State.recordError_raced (s : State) (code : ErrCode) (vb : BitVec 2) (mb : Word) : (s.recordError code vb mb).raced = s.raced := rfl
@[simp] theorem State.recordError_draws (s : State) (code : ErrCode) (vb : BitVec 2) (mb : Word) : (s.recordError code vb mb).draws = s.draws := rfl

/-! ## clearError -/

@[simp] theorem State.clearError_autoClear (s : State) : s.clearError.autoClear = s.autoClear := rfl
@[simp] theorem State.clearError_intStatus (s : State) : s.clearError.intStatus = s.intStatus := rfl
@[simp] theorem State.clearError_intEnable (s : State) : s.clearError.intEnable = s.intEnable := rfl
@[simp] theorem State.clearError_cfg (s : State) : s.clearError.cfg = s.cfg := rfl
@[simp] theorem State.clearError_errCode (s : State) : s.clearError.errCode = ErrCode.none := rfl
@[simp] theorem State.clearError_errVb (s : State) : s.clearError.errVb = 0 := rfl
@[simp] theorem State.clearError_errMb (s : State) : s.clearError.errMb = 0 := rfl
@[simp] theorem State.clearError_busy (s : State) : s.clearError.busy = s.busy := rfl
@[simp] theorem State.clearError_cmdWord (s : State) : s.clearError.cmdWord = s.cmdWord := rfl
@[simp] theorem State.clearError_cmdCfg (s : State) : s.clearError.cmdCfg = s.cmdCfg := rfl
@[simp] theorem State.clearError_fActive (s : State) : s.clearError.fActive = s.fActive := rfl
@[simp] theorem State.clearError_frame (s : State) : s.clearError.frame = s.frame := rfl
@[simp] theorem State.clearError_geom (s : State) : s.clearError.geom = s.geom := rfl
@[simp] theorem State.clearError_ctx (s : State) : s.clearError.ctx = s.ctx := rfl
@[simp] theorem State.clearError_coef (s : State) : s.clearError.coef = s.coef := rfl
@[simp] theorem State.clearError_mem (s : State) : s.clearError.mem = s.mem := rfl
@[simp] theorem State.clearError_destMap (s : State) : s.clearError.destMap = s.destMap := rfl
@[simp] theorem State.clearError_inputs (s : State) : s.clearError.inputs = s.inputs := rfl
@[simp] theorem State.clearError_response (s : State) : s.clearError.response = s.response := rfl
@[simp] theorem State.clearError_raced (s : State) : s.clearError.raced = s.raced := rfl
@[simp] theorem State.clearError_draws (s : State) : s.clearError.draws = s.draws := rfl

/-! ## accept -/

@[simp] theorem State.accept_autoClear (s : State) (d : Word) : (s.accept d).autoClear = s.autoClear := rfl
@[simp] theorem State.accept_intStatus (s : State) (d : Word) : (s.accept d).intStatus = s.intStatus := rfl
@[simp] theorem State.accept_intEnable (s : State) (d : Word) : (s.accept d).intEnable = s.intEnable := rfl
@[simp] theorem State.accept_cfg (s : State) (d : Word) : (s.accept d).cfg = s.cfg := rfl
@[simp] theorem State.accept_errCode (s : State) (d : Word) : (s.accept d).errCode = s.errCode := rfl
@[simp] theorem State.accept_errVb (s : State) (d : Word) : (s.accept d).errVb = s.errVb := rfl
@[simp] theorem State.accept_errMb (s : State) (d : Word) : (s.accept d).errMb = s.errMb := rfl
@[simp] theorem State.accept_busy (s : State) (d : Word) : (s.accept d).busy = true := rfl
@[simp] theorem State.accept_cmdWord (s : State) (d : Word) : (s.accept d).cmdWord = d := rfl
@[simp] theorem State.accept_cmdCfg (s : State) (d : Word) : (s.accept d).cmdCfg = s.cfg := rfl
@[simp] theorem State.accept_fActive (s : State) (d : Word) : (s.accept d).fActive = s.fActive := rfl
@[simp] theorem State.accept_frame (s : State) (d : Word) : (s.accept d).frame = s.frame := rfl
@[simp] theorem State.accept_geom (s : State) (d : Word) : (s.accept d).geom = s.geom := rfl
@[simp] theorem State.accept_ctx (s : State) (d : Word) : (s.accept d).ctx = s.ctx := rfl
@[simp] theorem State.accept_coef (s : State) (d : Word) : (s.accept d).coef = s.coef := rfl
@[simp] theorem State.accept_mem (s : State) (d : Word) : (s.accept d).mem = s.mem := rfl
@[simp] theorem State.accept_destMap (s : State) (d : Word) : (s.accept d).destMap = s.destMap := rfl
@[simp] theorem State.accept_inputs (s : State) (d : Word) : (s.accept d).inputs = s.inputs := rfl
@[simp] theorem State.accept_response (s : State) (d : Word) : (s.accept d).response = s.response := rfl
@[simp] theorem State.accept_raced (s : State) (d : Word) : (s.accept d).raced = s.raced := rfl
@[simp] theorem State.accept_draws (s : State) (d : Word) : (s.accept d).draws = s.draws := rfl

/-! ## overrun -/

@[simp] theorem State.overrun_autoClear (s : State) : s.overrun.autoClear = s.autoClear := rfl
@[simp] theorem State.overrun_intStatus (s : State) : s.overrun.intStatus = s.intStatus ||| intOvr := rfl
@[simp] theorem State.overrun_intEnable (s : State) : s.overrun.intEnable = s.intEnable := rfl
@[simp] theorem State.overrun_cfg (s : State) : s.overrun.cfg = s.cfg := rfl
@[simp] theorem State.overrun_errCode (s : State) : s.overrun.errCode = s.errCode := rfl
@[simp] theorem State.overrun_errVb (s : State) : s.overrun.errVb = s.errVb := rfl
@[simp] theorem State.overrun_errMb (s : State) : s.overrun.errMb = s.errMb := rfl
@[simp] theorem State.overrun_busy (s : State) : s.overrun.busy = s.busy := rfl
@[simp] theorem State.overrun_cmdWord (s : State) : s.overrun.cmdWord = s.cmdWord := rfl
@[simp] theorem State.overrun_cmdCfg (s : State) : s.overrun.cmdCfg = s.cmdCfg := rfl
@[simp] theorem State.overrun_fActive (s : State) : s.overrun.fActive = s.fActive := rfl
@[simp] theorem State.overrun_frame (s : State) : s.overrun.frame = s.frame := rfl
@[simp] theorem State.overrun_geom (s : State) : s.overrun.geom = s.geom := rfl
@[simp] theorem State.overrun_ctx (s : State) : s.overrun.ctx = s.ctx := rfl
@[simp] theorem State.overrun_coef (s : State) : s.overrun.coef = s.coef := rfl
@[simp] theorem State.overrun_mem (s : State) : s.overrun.mem = s.mem := rfl
@[simp] theorem State.overrun_destMap (s : State) : s.overrun.destMap = s.destMap := rfl
@[simp] theorem State.overrun_inputs (s : State) : s.overrun.inputs = s.inputs := rfl
@[simp] theorem State.overrun_response (s : State) : s.overrun.response = s.response := rfl
@[simp] theorem State.overrun_raced (s : State) : s.overrun.raced = s.raced := rfl
@[simp] theorem State.overrun_draws (s : State) : s.overrun.draws = s.draws := rfl

/-! ## complete -/

@[simp] theorem State.complete_autoClear (s : State) : s.complete.autoClear = s.autoClear := rfl
@[simp] theorem State.complete_intStatus (s : State) : s.complete.intStatus = s.intStatus ||| intCmdDone := rfl
@[simp] theorem State.complete_intEnable (s : State) : s.complete.intEnable = s.intEnable := rfl
@[simp] theorem State.complete_cfg (s : State) : s.complete.cfg = s.cfg := rfl
@[simp] theorem State.complete_errCode (s : State) : s.complete.errCode = s.errCode := rfl
@[simp] theorem State.complete_errVb (s : State) : s.complete.errVb = s.errVb := rfl
@[simp] theorem State.complete_errMb (s : State) : s.complete.errMb = s.errMb := rfl
@[simp] theorem State.complete_busy (s : State) : s.complete.busy = false := rfl
@[simp] theorem State.complete_cmdWord (s : State) : s.complete.cmdWord = s.cmdWord := rfl
@[simp] theorem State.complete_cmdCfg (s : State) : s.complete.cmdCfg = s.cmdCfg := rfl
@[simp] theorem State.complete_fActive (s : State) : s.complete.fActive = s.fActive := rfl
@[simp] theorem State.complete_frame (s : State) : s.complete.frame = s.frame := rfl
@[simp] theorem State.complete_geom (s : State) : s.complete.geom = s.geom := rfl
@[simp] theorem State.complete_ctx (s : State) : s.complete.ctx = s.ctx := rfl
@[simp] theorem State.complete_coef (s : State) : s.complete.coef = s.coef := rfl
@[simp] theorem State.complete_mem (s : State) : s.complete.mem = s.mem := rfl
@[simp] theorem State.complete_destMap (s : State) : s.complete.destMap = s.destMap := rfl
@[simp] theorem State.complete_inputs (s : State) : s.complete.inputs = s.inputs := rfl
@[simp] theorem State.complete_response (s : State) : s.complete.response = s.response := rfl
@[simp] theorem State.complete_raced (s : State) : s.complete.raced = [] := rfl
@[simp] theorem State.complete_draws (s : State) : s.complete.draws = s.draws := rfl

/-! ## enterNoGeometry -/

@[simp] theorem State.enterNoGeometry_autoClear (s : State) : s.enterNoGeometry.autoClear = s.autoClear := rfl
@[simp] theorem State.enterNoGeometry_intStatus (s : State) : s.enterNoGeometry.intStatus = s.intStatus := rfl
@[simp] theorem State.enterNoGeometry_intEnable (s : State) : s.enterNoGeometry.intEnable = s.intEnable := rfl
@[simp] theorem State.enterNoGeometry_cfg (s : State) : s.enterNoGeometry.cfg = s.cfg := rfl
@[simp] theorem State.enterNoGeometry_errCode (s : State) : s.enterNoGeometry.errCode = s.errCode := rfl
@[simp] theorem State.enterNoGeometry_errVb (s : State) : s.enterNoGeometry.errVb = s.errVb := rfl
@[simp] theorem State.enterNoGeometry_errMb (s : State) : s.enterNoGeometry.errMb = s.errMb := rfl
@[simp] theorem State.enterNoGeometry_busy (s : State) : s.enterNoGeometry.busy = s.busy := rfl
@[simp] theorem State.enterNoGeometry_cmdWord (s : State) : s.enterNoGeometry.cmdWord = s.cmdWord := rfl
@[simp] theorem State.enterNoGeometry_cmdCfg (s : State) : s.enterNoGeometry.cmdCfg = s.cmdCfg := rfl
@[simp] theorem State.enterNoGeometry_fActive (s : State) : s.enterNoGeometry.fActive = false := rfl
@[simp] theorem State.enterNoGeometry_frame (s : State) : s.enterNoGeometry.frame = Latched.zero := rfl
@[simp] theorem State.enterNoGeometry_geom (s : State) : s.enterNoGeometry.geom = Geom.none := rfl
@[simp] theorem State.enterNoGeometry_ctx (s : State) : s.enterNoGeometry.ctx = Vector.replicate 4 Context.unused := rfl
@[simp] theorem State.enterNoGeometry_coef (s : State) : s.enterNoGeometry.coef = s.coef := rfl
@[simp] theorem State.enterNoGeometry_mem (s : State) : s.enterNoGeometry.mem = s.mem := rfl
@[simp] theorem State.enterNoGeometry_destMap (s : State) : s.enterNoGeometry.destMap = s.destMap := rfl
@[simp] theorem State.enterNoGeometry_inputs (s : State) : s.enterNoGeometry.inputs = s.inputs := rfl
@[simp] theorem State.enterNoGeometry_response (s : State) : s.enterNoGeometry.response = s.response := rfl
@[simp] theorem State.enterNoGeometry_raced (s : State) : s.enterNoGeometry.raced = s.raced := rfl
@[simp] theorem State.enterNoGeometry_draws (s : State) : s.enterNoGeometry.draws = s.draws := rfl

/-! ## latchFrame -/

@[simp] theorem State.latchFrame_autoClear (s : State) (c : FrameConfig) : (s.latchFrame c).autoClear = s.autoClear := rfl
@[simp] theorem State.latchFrame_intStatus (s : State) (c : FrameConfig) : (s.latchFrame c).intStatus = s.intStatus := rfl
@[simp] theorem State.latchFrame_intEnable (s : State) (c : FrameConfig) : (s.latchFrame c).intEnable = s.intEnable := rfl
@[simp] theorem State.latchFrame_cfg (s : State) (c : FrameConfig) : (s.latchFrame c).cfg = s.cfg := rfl
@[simp] theorem State.latchFrame_errCode (s : State) (c : FrameConfig) : (s.latchFrame c).errCode = s.errCode := rfl
@[simp] theorem State.latchFrame_errVb (s : State) (c : FrameConfig) : (s.latchFrame c).errVb = s.errVb := rfl
@[simp] theorem State.latchFrame_errMb (s : State) (c : FrameConfig) : (s.latchFrame c).errMb = s.errMb := rfl
@[simp] theorem State.latchFrame_busy (s : State) (c : FrameConfig) : (s.latchFrame c).busy = s.busy := rfl
@[simp] theorem State.latchFrame_cmdWord (s : State) (c : FrameConfig) : (s.latchFrame c).cmdWord = s.cmdWord := rfl
@[simp] theorem State.latchFrame_cmdCfg (s : State) (c : FrameConfig) : (s.latchFrame c).cmdCfg = s.cmdCfg := rfl
@[simp] theorem State.latchFrame_fActive (s : State) (c : FrameConfig) : (s.latchFrame c).fActive = true := rfl
@[simp] theorem State.latchFrame_frame (s : State) (c : FrameConfig) : (s.latchFrame c).frame = ⟨c.width, c.height, c.scan, c.fmt, c.destBase, c.destStride⟩ := rfl
@[simp] theorem State.latchFrame_geom (s : State) (c : FrameConfig) : (s.latchFrame c).geom = arrangement c.width.toNat c.height.toNat c.scan := rfl
@[simp] theorem State.latchFrame_ctx (s : State) (c : FrameConfig) : (s.latchFrame c).ctx = Vector.ofFn (initContext c.width.toNat c.height.toNat c.scan) := rfl
@[simp] theorem State.latchFrame_coef (s : State) (c : FrameConfig) : (s.latchFrame c).coef = s.coef := rfl
@[simp] theorem State.latchFrame_mem (s : State) (c : FrameConfig) : (s.latchFrame c).mem = s.mem := rfl
@[simp] theorem State.latchFrame_destMap (s : State) (c : FrameConfig) : (s.latchFrame c).destMap = s.destMap := rfl
@[simp] theorem State.latchFrame_inputs (s : State) (c : FrameConfig) : (s.latchFrame c).inputs = s.inputs := rfl
@[simp] theorem State.latchFrame_response (s : State) (c : FrameConfig) : (s.latchFrame c).response = s.response := rfl
@[simp] theorem State.latchFrame_raced (s : State) (c : FrameConfig) : (s.latchFrame c).raced = s.raced := rfl
@[simp] theorem State.latchFrame_draws (s : State) (c : FrameConfig) : (s.latchFrame c).draws = s.draws := rfl

/-! ## resetBlock -/

@[simp] theorem State.resetBlock_autoClear (s : State) (k : Vector CoefEntry 512) : (s.resetBlock k).autoClear = false := rfl
@[simp] theorem State.resetBlock_intStatus (s : State) (k : Vector CoefEntry 512) : (s.resetBlock k).intStatus = 0 := rfl
@[simp] theorem State.resetBlock_intEnable (s : State) (k : Vector CoefEntry 512) : (s.resetBlock k).intEnable = 0 := rfl
@[simp] theorem State.resetBlock_cfg (s : State) (k : Vector CoefEntry 512) : (s.resetBlock k).cfg = FrameConfig.zero := rfl
@[simp] theorem State.resetBlock_errCode (s : State) (k : Vector CoefEntry 512) : (s.resetBlock k).errCode = ErrCode.none := rfl
@[simp] theorem State.resetBlock_errVb (s : State) (k : Vector CoefEntry 512) : (s.resetBlock k).errVb = 0 := rfl
@[simp] theorem State.resetBlock_errMb (s : State) (k : Vector CoefEntry 512) : (s.resetBlock k).errMb = 0 := rfl
@[simp] theorem State.resetBlock_busy (s : State) (k : Vector CoefEntry 512) : (s.resetBlock k).busy = false := rfl
@[simp] theorem State.resetBlock_cmdWord (s : State) (k : Vector CoefEntry 512) : (s.resetBlock k).cmdWord = 0 := rfl
@[simp] theorem State.resetBlock_cmdCfg (s : State) (k : Vector CoefEntry 512) : (s.resetBlock k).cmdCfg = FrameConfig.zero := rfl
@[simp] theorem State.resetBlock_fActive (s : State) (k : Vector CoefEntry 512) : (s.resetBlock k).fActive = false := rfl
@[simp] theorem State.resetBlock_frame (s : State) (k : Vector CoefEntry 512) : (s.resetBlock k).frame = Latched.zero := rfl
@[simp] theorem State.resetBlock_geom (s : State) (k : Vector CoefEntry 512) : (s.resetBlock k).geom = Geom.none := rfl
@[simp] theorem State.resetBlock_ctx (s : State) (k : Vector CoefEntry 512) : (s.resetBlock k).ctx = Vector.replicate 4 Context.unused := rfl
@[simp] theorem State.resetBlock_coef (s : State) (k : Vector CoefEntry 512) : (s.resetBlock k).coef = k := rfl
@[simp] theorem State.resetBlock_mem (s : State) (k : Vector CoefEntry 512) : (s.resetBlock k).mem = s.mem := rfl
@[simp] theorem State.resetBlock_destMap (s : State) (k : Vector CoefEntry 512) : (s.resetBlock k).destMap = s.destMap := rfl
@[simp] theorem State.resetBlock_inputs (s : State) (k : Vector CoefEntry 512) : (s.resetBlock k).inputs = s.inputs := rfl
@[simp] theorem State.resetBlock_response (s : State) (k : Vector CoefEntry 512) : (s.resetBlock k).response = s.response := rfl
@[simp] theorem State.resetBlock_raced (s : State) (k : Vector CoefEntry 512) : (s.resetBlock k).raced = [] := rfl
@[simp] theorem State.resetBlock_draws (s : State) (k : Vector CoefEntry 512) : (s.resetBlock k).draws = s.draws := rfl

end Sys2Proof.Machine
end

