-- ==== Sys2Proof/Laws/Arrangement.lean ====
section
/-! SUPPORT. Arithmetic of the macroblock arrangement (R170 to R175): its sizes in units of macroblocks, how the counts and the
regions fit together, and the three places a macroblock can have. -/

namespace Sys2Proof.Machine

/-- The dimensions that pass GeometryOK, in macroblock units: `h` is `q` full rows and `e` half rows (R162). -/
theorem geometryOk_shape {w h : Nat} (hg : geometryOk w h = true) :
    ∃ p q e : Nat, w = 16 * p ∧ h = 16 * q + 8 * e ∧ 0 < p ∧ e ≤ 1 ∧ (e = 1 → p % 2 = 0) ∧ 0 < 2*q + e := by
  simp [geometryOk] at hg
  refine ⟨w/16, h/16, (h%16)/8, ?_⟩
  omega

/-- TOTAL in macroblock units (R170). -/
theorem mbTotal_units {p q e : Nat} (he : e ≤ 1) (hp : e = 1 → p % 2 = 0) :
    mbTotal (16*p) (16*q+8*e) = q * p + e * (p/2) := by
  unfold mbTotal
  have : 16 * p * (16*q+8*e) = 256 * (q*p) + 128 * (e * p) := by ring
  rw [this]
  rcases (show e = 0 ∨ e = 1 by omega) with rfl | rfl
  · simp
  · have := hp rfl; simp; omega

/-- PS in macroblock units (R171). -/
theorem padStartRow_units {q e : Nat} (he : e ≤ 1) (sc : Scan) : padStartRow (16*q+8*e) sc = q / sc.vbc * sc.vbc := by
  unfold padStartRow
  rcases (show e = 0 ∨ e = 1 by omega) with rfl | rfl <;> cases sc <;> simp [Scan.vbc] <;> omega

/-- NORMAL in macroblock units (R172). -/
theorem normalCount_units {p q e : Nat} (he : e ≤ 1) (sc : Scan) : normalCount (16*p) (16*q+8*e) sc = q / sc.vbc * p := by
  unfold normalCount
  rw [padStartRow_units he]
  cases sc <;> simp [Scan.vbc]

/-- NSTRIP in macroblock units (R172). -/
theorem stripCount_units {p q e : Nat} (he : e ≤ 1)  : stripCount (16*p) (16*q+8*e) = e * (p/2) := by
  unfold stripCount
  rcases (show e = 0 ∨ e = 1 by omega) with rfl | rfl
  · simp
  · simp; omega

/-- How the counts, the regions and the running sum fit together (R172, R173, R175), for every frame that passes GeometryOK. -/
theorem blockCount_facts {w h : Nat} (hg : geometryOk w h = true) (sc : Scan) :
   (∀ v, v < sc.vbc → normalCount w h sc ≤ blockCount w h sc v) ∧
   ((List.range sc.vbc).map (blockCount w h sc)).sum = mbTotal w h ∧
   mbTotal w h = h/16 * (w/16) + stripCount w h ∧
   padRunStart w h sc sc.vbc = (h/16 - padStartRow h sc) * (w/16) + stripCount w h ∧
   sc.vbc * normalCount w h sc = padStartRow h sc * (w/16) ∧ padStartRow h sc ≤ h/16 := by
  obtain ⟨p,q,e,rfl,rfl,hp,he,hpe,hq⟩ := geometryOk_shape hg
  have h1 := mbTotal_units (q:=q) he hpe
  have h2 := padStartRow_units (q:=q) he sc
  have h3 := normalCount_units (p:=p) (q:=q) he sc
  have h4 := stripCount_units (p:=p) (q:=q) he
  have e1 : 16*p/16 = p := by omega
  have e2 : (16*q+8*e)/16 = q := by omega
  -- decompose q = vbc*a + r
  have key : q * p = sc.vbc * (q / sc.vbc * p) + (q % sc.vbc) * p := by
    conv_lhs => rw [← Nat.div_add_mod q sc.vbc]
    ring
  have hsub : (q - q / sc.vbc * sc.vbc) * p = (q % sc.vbc) * p := by
    congr 1
    have := Nat.div_add_mod q sc.vbc
    have := Nat.mul_comm (q/sc.vbc) sc.vbc
    omega
  have hps : q / sc.vbc * sc.vbc ≤ q := Nat.div_mul_le_self _ _
  have hmul: q / sc.vbc * sc.vbc * p = sc.vbc * (q/sc.vbc*p) := by ring
  unfold padRunStart
  simp only [e1,e2,h2,h3,h4,hsub, hmul]
  have hb : ∀ v, blockCount (16*p) (16*q+8*e) sc v = (q * p + e * (p/2)) / sc.vbc + mbExtra ((q * p + e * (p/2)) % sc.vbc) v := by
    intro v; unfold blockCount; rw [h1]
  rw [key] at hb
  simp only [h1]
  rw [key]
  generalize blockCount (16*p) (16*q+8*e) sc = B at *
  generalize q / sc.vbc * p = N at *
  generalize q % sc.vbc * p = R at *
  generalize e * (p/2) = S at *
  clear h1 h2 h3 h4 e1 e2 key hsub hmul 
  cases sc
  · simp only [Scan.vbc] at *
    have b0 := hb 0; have b1 := hb 1
    have : (2*N+R+S)/2 = N + (R+S)/2 := by omega
    have hm : (2*N+R+S)%2 = (R+S)%2 := by omega
    rw [this,hm] at b0 b1
    rcases (show (R+S)%2 = 0 ∨ (R+S)%2 = 1 by omega) with hx|hx <;> rw [hx] at b0 b1 <;> simp [mbExtra] at b0 b1 <;>
      refine ⟨fun v hv => ?_, ?_, ?_, ?_, ?_, hps⟩ <;> (try simp [List.range_succ]) <;> (try (rcases (show v = 0 ∨ v = 1 by omega) with rfl|rfl)) <;> omega
  · simp only [Scan.vbc] at *
    have b0 := hb 0; have b1 := hb 1
    have b2 := hb 2; have b3 := hb 3
    have : (4*N+R+S)/4 = N + (R+S)/4 := by omega
    have hm : (4*N+R+S)%4 = (R+S)%4 := by omega
    rw [this,hm] at b0 b1 b2 b3
    rcases (show (R+S)%4 = 0 ∨ (R+S)%4 = 1 ∨ (R+S)%4 = 2 ∨ (R+S)%4 = 3 by omega) with hx|hx|hx|hx <;> rw [hx] at b0 b1 b2 b3 <;> simp [mbExtra] at b0 b1 b2 b3 <;>
      refine ⟨fun v hv => ?_, ?_, ?_, ?_, ?_, hps⟩ <;> (try simp [List.range_succ]) <;> (try (rcases (show v = 0 ∨ v = 1 ∨ v = 2 ∨ v = 3 by omega) with rfl|rfl|rfl|rfl)) <;> omega

/-- Each padding run starts where the one before it ends (R173). -/
theorem padRunStart_succ (w h : Nat) (sc : Scan) (v : Nat) :
    padRunStart w h sc (v+1) = padRunStart w h sc v + (blockCount w h sc v - normalCount w h sc) := by
  simp [padRunStart, List.range_succ]

/-- Video block 0 starts its padding run at 0 (R173). -/
theorem padRunStart_zero (w h : Nat) (sc : Scan) : padRunStart w h sc 0 = 0 := rfl

/-- The padding runs start in the order of the video blocks (R173). -/
theorem padRunStart_mono (w h : Nat) (sc : Scan) {a b : Nat} (hab : a ≤ b) : padRunStart w h sc a ≤ padRunStart w h sc b := by
  induction hab with
  | refl => exact le_rfl
  | step _ ih => rw [padRunStart_succ]; omega

/-- `P[v]` as the arrangement holds it (R173). -/
theorem arrangement_p (w h : Nat) (sc : Scan) (v : Fin 4) (hv : v.val < sc.vbc) : (arrangement w h sc).p[v.val] = padRunStart w h sc v.val := by
  simp [arrangement, hv]

/-- The place of a macroblock of the normal region (R174). -/
theorem mbPos_normal {g : Geom} {v : Fin 4} {i : Nat} (h : i < g.normal) :
   mbPos g v i = ⟨.std16, 16 * (i % g.per), 16 * (v.val + g.vbc * (i / g.per))⟩ := by simp [mbPos, h]

/-- The place of a full macroblock of the padding region (R173, R174). -/
theorem mbPos_pad {g : Geom} {v : Fin 4} {i : Nat} (h : ¬ i < g.normal) {p} (hp : g.p[v.val] + (i - g.normal) = p) (hpf : p < g.padFull) (hr : g.ps + p / g.per < g.h16) :
   mbPos g v i = ⟨.std16, 16 * (p % g.per), 16 * (g.ps + p / g.per)⟩ := by simp [mbPos, h, padGrid, hp, hpf, hr]

/-- The place of a strip macroblock (R173, R174). -/
theorem mbPos_strip {g : Geom} {v : Fin 4} {i : Nat} (h : ¬ i < g.normal) {p} (hp : g.p[v.val] + (i - g.normal) = p) (hpf : ¬ p < g.padFull) :
   mbPos g v i = ⟨.strip, 32 * (p - g.padFull), 16 * g.h16⟩ := by simp [mbPos, h, padGrid, hp, hpf]

/-- Every macroblock lies in the normal region, among the full padding rows, or in the strip (R174). -/
theorem mbPos_cases {w h : Nat} (hg : geometryOk w h = true) (sc : Scan) {v : Fin 4} {i : Nat} (hv : v.val < sc.vbc) (hi : i < blockCount w h sc v.val) :
   let g := arrangement w h sc
   (i < normalCount w h sc ∧ mbPos g v i = ⟨.std16, 16 * (i % (w/16)), 16 * (v.val + sc.vbc * (i / (w/16)))⟩ ∧ v.val + sc.vbc * (i / (w/16)) < padStartRow h sc) ∨
   (normalCount w h sc ≤ i ∧ ∃ p, padRunStart w h sc v.val + (i - normalCount w h sc) = p ∧ p < padRunStart w h sc (v.val+1) ∧ padRunStart w h sc v.val ≤ p ∧
      ((p < (h/16 - padStartRow h sc)*(w/16) ∧ mbPos g v i = ⟨.std16, 16 * (p % (w/16)), 16*(padStartRow h sc + p/(w/16))⟩ ∧ padStartRow h sc + p/(w/16) < h/16) ∨
       ((h/16 - padStartRow h sc)*(w/16) ≤ p ∧ p - (h/16 - padStartRow h sc)*(w/16) < stripCount w h ∧ mbPos g v i = ⟨.strip, 32 * (p - (h/16 - padStartRow h sc)*(w/16)), 16*(h/16)⟩))) := by
  intro g
  obtain ⟨f1,f2,f3,f4,f5,f6⟩ := blockCount_facts hg sc
  have hw : 0 < w/16 := by simp [geometryOk] at hg; omega
  by_cases hn : i < normalCount w h sc
  · left
    refine ⟨hn, mbPos_normal (g := g) hn, ?_⟩
    have hps : padStartRow h sc = padStartRow h sc / sc.vbc * sc.vbc := by
      unfold padStartRow; rw [Nat.mul_div_cancel _ (by cases sc <;> simp [Scan.vbc])]
    have : i / (w/16) < padStartRow h sc / sc.vbc := by
      rw [Nat.div_lt_iff_lt_mul hw]; exact hn
    generalize i / (w/16) = a at *
    generalize padStartRow h sc / sc.vbc = b at *
    rw [hps]
    have : sc.vbc * (a+1) ≤ sc.vbc * b := Nat.mul_le_mul_left _ this
    rw [Nat.mul_comm b]; rw [Nat.mul_add] at this; omega
  · right
    have hc := f1 v.val hv
    have hs := padRunStart_succ w h sc v.val
    have hm := padRunStart_mono w h sc (show v.val+1 ≤ sc.vbc by omega)
    refine ⟨by omega, _, rfl, by omega, by omega, ?_⟩
    have hp := arrangement_p w h sc v hv
    generalize hpp : padRunStart w h sc v.val + (i - normalCount w h sc) = p at *
    by_cases hpf : p < (h/16 - padStartRow h sc)*(w/16)
    · left
      have : p / (w/16) < h/16 - padStartRow h sc := by rw [Nat.div_lt_iff_lt_mul hw]; exact hpf
      refine ⟨hpf, mbPos_pad (g:=g) (p:=p) hn (by rw [← hpp, ← hp]; rfl) hpf ?_, by omega⟩
      show padStartRow h sc + p/(w/16) < h/16
      omega
    · right
      refine ⟨by omega, by omega, mbPos_strip (g:=g) (p:=p) hn (by rw [← hpp, ← hp]; rfl) hpf⟩

end Sys2Proof.Machine
end

