-- ==== Sys2Proof/Laws/Memory.lean ====
section
/-! SUPPORT. Destination memory: a read after a write, what a list of writes leaves, and that every write keeps the canonical
form. -/

namespace Sys2Proof.Machine

/-! ## One write -/

@[simp] theorem Memory.read_nil (a : Nat) : Memory.read [] a = none := rfl

theorem Memory.read_cons (c : Host.Cell) (m : List Host.Cell) (a : Nat) :
    Memory.read (c :: m) a = if c.1 = a then some c.2 else Memory.read m a := rfl

/-- A read of a list is a read of one of its entries. -/
theorem Memory.read_mem {m : List Host.Cell} {a : Nat} {v : Byte} (h : Memory.read m a = some v) : (a, v) ∈ m := by
  induction m with
  | nil => simp at h
  | cons c m ih =>
    rw [Memory.read_cons] at h
    split at h
    · next hc => cases h; subst hc; simp
    · exact List.mem_cons_of_mem _ (ih h)

/-- Whatever the memory, a write leaves its byte at its address and every other address as it was. -/
theorem Memory.read_write (m : List Host.Cell) (a : Nat) (v : Byte) (b : Nat) :
    Memory.read (Memory.write m a v) b = if a = b then some v else Memory.read m b := by
  induction m with
  | nil => rfl
  | cons c m ih =>
    unfold Memory.write
    split
    · rfl
    · split
      · next h1 h2 => subst h2; simp only [Memory.read_cons]; split <;> rfl
      · next h1 h2 =>
        rw [Memory.read_cons, Memory.read_cons, ih]
        split
        · next h3 => subst h3; simp [h2]
        · rfl

@[simp] theorem Memory.read_write_same (m : List Host.Cell) (a : Nat) (v : Byte) :
    Memory.read (Memory.write m a v) a = some v := by simp [Memory.read_write]

theorem Memory.read_write_other {m : List Host.Cell} {a b : Nat} {v : Byte} (h : a ≠ b) :
    Memory.read (Memory.write m a v) b = Memory.read m b := by simp [Memory.read_write, h]

/-! ## The canonical form -/

/-- The canonical form, entry by entry. -/
theorem Memory.wf_cons (c : Host.Cell) (m : List Host.Cell) :
    Memory.wf (c :: m) = true ↔ c.1 < Config.addrSpace ∧ (∀ d ∈ m, c.1 < d.1) ∧ Memory.wf m = true := by
  induction m generalizing c with
  | nil => simp [Memory.wf]
  | cons d m ih =>
    have hd := ih d
    simp only [Memory.wf, Bool.and_eq_true, decide_eq_true_eq, List.mem_cons, forall_eq_or_imp]
    constructor
    · rintro ⟨h1, h2⟩
      obtain ⟨h3, h4, -⟩ := hd.1 h2
      exact ⟨by omega, ⟨h1, fun e he => by have := h4 e he; omega⟩, h2⟩
    · rintro ⟨-, ⟨h2, -⟩, h4⟩
      exact ⟨h2, h4⟩

/-- In canonical form an address below the first entry is unlisted. -/
theorem Memory.read_below {c : Host.Cell} {m : List Host.Cell} {a : Nat} (h : Memory.wf (c :: m) = true) (ha : a ≤ c.1) :
    Memory.read m a = none := by
  cases hr : Memory.read m a with
  | none => rfl
  | some v =>
    have := ((Memory.wf_cons c m).1 h).2.1 _ (Memory.read_mem hr)
    simp at this
    omega

/-- Where a write puts its entry, every later address is above an earlier bound. -/
theorem Memory.lt_of_mem_write {m : List Host.Cell} {a lo : Nat} {v : Byte} (hm : ∀ d ∈ m, lo < d.1) (ha : lo < a) :
    ∀ d ∈ Memory.write m a v, lo < d.1 := by
  induction m with
  | nil => intro d hd; simp only [Memory.write, List.mem_singleton] at hd; subst hd; exact ha
  | cons c m ih =>
    have hc : lo < c.1 := hm c List.mem_cons_self
    have hm' : ∀ d ∈ m, lo < d.1 := fun d hd => hm d (List.mem_cons_of_mem _ hd)
    intro d hd
    unfold Memory.write at hd
    split at hd
    · rcases List.mem_cons.1 hd with rfl | hd
      · exact ha
      · exact hm d hd
    · split at hd
      · rcases List.mem_cons.1 hd with rfl | hd
        · exact ha
        · exact hm' d hd
      · rcases List.mem_cons.1 hd with rfl | hd
        · exact hc
        · exact ih hm' d hd

/-- A write of an address that exists keeps the canonical form. -/
theorem Memory.wf_write {m : List Host.Cell} {a : Nat} {v : Byte} (hm : Memory.wf m = true) (ha : a < Config.addrSpace) :
    Memory.wf (Memory.write m a v) = true := by
  induction m with
  | nil => simpa [Memory.write, Memory.wf] using ha
  | cons c m ih =>
    obtain ⟨h1, h2, h3⟩ := (Memory.wf_cons c m).1 hm
    unfold Memory.write
    split
    · next hlt =>
      refine (Memory.wf_cons _ _).2 ⟨ha, ?_, hm⟩
      simp only [List.mem_cons, forall_eq_or_imp]
      exact ⟨hlt, fun d hd => by have := h2 d hd; simp at *; omega⟩
    · split
      · next heq => subst heq; exact (Memory.wf_cons _ _).2 ⟨h1, h2, h3⟩
      · next hlt hne =>
        exact (Memory.wf_cons _ _).2 ⟨h1, Memory.lt_of_mem_write h2 (by omega), ih h3⟩

/-- Two memories in canonical form that read alike are the same list. -/
theorem Memory.ext {m m' : List Host.Cell} (h : Memory.wf m = true) (h' : Memory.wf m' = true)
    (hr : ∀ a, Memory.read m a = Memory.read m' a) : m = m' := by
  induction m generalizing m' with
  | nil =>
    cases m' with
    | nil => rfl
    | cons d m' => have := hr d.1; simp [Memory.read_cons] at this
  | cons c m ih =>
    cases m' with
    | nil => have := hr c.1; simp [Memory.read_cons] at this
    | cons d m' =>
      have hcd : c.1 = d.1 := by
        rcases Nat.lt_trichotomy c.1 d.1 with hlt | heq | hgt
        · have e := hr c.1
          simp [Memory.read_cons, Memory.read_below h' hlt.le, Nat.ne_of_gt hlt] at e
        · exact heq
        · have e := hr d.1
          simp [Memory.read_cons, Memory.read_below h hgt.le, Nat.ne_of_gt hgt] at e
      have hv : c.2 = d.2 := by have e := hr c.1; simpa [Memory.read_cons, hcd] using e
      have htail : m = m' := by
        refine ih ((Memory.wf_cons _ _).1 h).2.2 ((Memory.wf_cons _ _).1 h').2.2 fun a => ?_
        by_cases ha : a ≤ c.1
        · rw [Memory.read_below h ha, Memory.read_below h' (hcd ▸ ha)]
        · have e := hr a
          rw [Memory.read_cons, Memory.read_cons, if_neg (by omega), if_neg (by omega)] at e
          exact e
      rw [htail, Prod.ext hcd hv]

/-! ## A list of writes -/

@[simp] theorem Memory.writeAll_nil (m : List Host.Cell) : Memory.writeAll m [] = m := rfl

@[simp] theorem Memory.writeAll_cons (m : List Host.Cell) (w : ByteAt) (ws : List ByteAt) :
    Memory.writeAll m (w :: ws) = Memory.writeAll (Memory.write m w.1 w.2) ws := rfl

/-- A list of writes leaves every address it does not write as it was. -/
theorem Memory.read_writeAll_other {ws : List ByteAt} {a : Nat} (m : List Host.Cell) (h : ∀ w ∈ ws, w.1 ≠ a) :
    Memory.read (Memory.writeAll m ws) a = Memory.read m a := by
  induction ws generalizing m with
  | nil => rfl
  | cons w ws ih =>
    simp only [List.mem_cons, forall_eq_or_imp] at h
    rw [Memory.writeAll_cons, ih _ h.2, Memory.read_write_other h.1]

/-- An address reads after a list of writes as before it, or as one of the writes to it says. -/
theorem Memory.read_writeAll_cases (m : List Host.Cell) (ws : List ByteAt) (a : Nat) :
    Memory.read (Memory.writeAll m ws) a = Memory.read m a
      ∨ ∃ v, (a, v) ∈ ws ∧ Memory.read (Memory.writeAll m ws) a = some v := by
  induction ws generalizing m with
  | nil => exact .inl rfl
  | cons w ws ih =>
    rw [Memory.writeAll_cons]
    rcases ih (Memory.write m w.1 w.2) with h | ⟨v, hv, hr⟩
    · by_cases ha : w.1 = a
      · subst ha
        exact .inr ⟨w.2, by simp, by rw [h, Memory.read_write_same]⟩
      · exact .inl (by rw [h, Memory.read_write_other ha])
    · exact .inr ⟨v, List.mem_cons_of_mem _ hv, hr⟩

/-- With no address written twice, every write of a list is found there afterwards. -/
theorem Memory.read_writeAll_mem {ws : List ByteAt} {a : Nat} {v : Byte} (m : List Host.Cell)
    (hn : (ws.map Prod.fst).Nodup) (h : (a, v) ∈ ws) : Memory.read (Memory.writeAll m ws) a = some v := by
  induction ws generalizing m with
  | nil => simp at h
  | cons w ws ih =>
    simp only [List.map_cons, List.nodup_cons] at hn
    rw [Memory.writeAll_cons]
    rcases List.mem_cons.1 h with h | h
    · subst h
      rw [Memory.read_writeAll_other _ fun w hw e => hn.1 (List.mem_map.2 ⟨w, hw, e⟩), Memory.read_write_same]
    · exact ih _ hn.2 h

/-- A list of writes to addresses that exist keeps the canonical form. -/
theorem Memory.wf_writeAll {ws : List ByteAt} {m : List Host.Cell} (hm : Memory.wf m = true)
    (h : ∀ w ∈ ws, w.1 < Config.addrSpace) : Memory.wf (Memory.writeAll m ws) = true := by
  induction ws generalizing m with
  | nil => exact hm
  | cons w ws ih =>
    simp only [List.mem_cons, forall_eq_or_imp] at h
    exact ih (Memory.wf_write hm h.1) h.2

/-! ## The writes of a command -/

theorem State.isMemory_lt {s : State} {a : Nat} (h : s.isMemory a = true) : a < Config.addrSpace := by
  simp [State.isMemory] at h; exact h.1

/-- A completed command's writes that land are among its writes. -/
theorem State.landing_subset {s : State} {ws : List ByteAt} {w : ByteAt} (h : w ∈ s.landing ws) : w ∈ ws := by
  unfold State.landing at h
  split at h
  · exact h
  · obtain ⟨p, hp, rfl⟩ := List.mem_map.1 h
    have := List.mem_of_mem_filter hp
    exact (List.mem_zipIdx this).2.2 ▸ List.getElem_mem _

/-- With no race every write of a completed command lands. -/
@[simp] theorem State.landing_of_no_race {s : State} (h : s.raced = []) (ws : List ByteAt) : s.landing ws = ws := by
  simp [State.landing, h]

/-- An aborted command's writes that land are among its writes. -/
theorem State.landingAborted_subset {s : State} {ws : List ByteAt} {w : ByteAt} (h : w ∈ s.landingAborted ws) : w ∈ ws := by
  obtain ⟨p, hp, rfl⟩ := List.mem_map.1 h
  have := List.mem_of_mem_filter hp
  exact (List.mem_zipIdx this).2.2 ▸ List.getElem_mem _

/-- All that putting bytes can do: every byte is ordinary memory and they are written, or the first that is not stops the
machine. -/
theorem State.putBytes_cases (s : State) (ws : List ByteAt) (n : Nat) :
    ((∀ w ∈ ws, s.isMemory w.1 = true)
        ∧ s.putBytes ws n = .next { s with mem := Memory.writeAll s.mem ws, draws := s.draws + n })
      ∨ ∃ w ∈ ws, s.isMemory w.1 = false ∧ s.putBytes ws n = .fault (.destNotMemory w.1) := by
  unfold State.putBytes
  cases h : ws.find? (fun w => !s.isMemory w.1) with
  | none => exact .inl ⟨by simpa using h, rfl⟩
  | some w =>
    exact .inr ⟨w, List.mem_of_find?_eq_some h, by simpa using List.find?_some h, rfl⟩

/-- Bytes that are all ordinary memory are written. -/
theorem State.putBytes_of_memory {s : State} {ws : List ByteAt} (n : Nat) (h : ∀ w ∈ ws, s.isMemory w.1 = true) :
    s.putBytes ws n = .next { s with mem := Memory.writeAll s.mem ws, draws := s.draws + n } := by
  rcases s.putBytes_cases ws n with ⟨-, e⟩ | ⟨w, hw, hm, -⟩
  · exact e
  · simp [h w hw] at hm

end Sys2Proof.Machine
end

