-- ==== Sys2Proof/Laws/Commands.lean ====
section
/-! SUPPORT. One lemma for each shared operation and each meaning that says all it can do, cited by later proofs in place of
its definition. -/

namespace Sys2Proof.Machine

/-! ## Outcomes -/

@[simp] theorem Outcome.onNext_next (s : State) (f : State → Outcome) : Outcome.onNext (.next s) f = f s := rfl
@[simp] theorem Outcome.onNext_fault (r : Fault) (f : State → Outcome) : Outcome.onNext (.fault r) f = .fault r := rfl
@[simp] theorem Outcome.onNext_refused (r : Refusal) (f : State → Outcome) : Outcome.onNext (.refused r) f = .refused r := rfl

/-- An outcome that goes on to a next state had a next state first. -/
theorem Outcome.onNext_eq_next {o : Outcome} {f : State → Outcome} {t : State} (h : o.onNext f = .next t) :
    ∃ s, o = .next s ∧ f s = .next t := by
  cases o with
  | next s => exact ⟨s, rfl, h⟩
  | fault r => simp at h
  | refused r => simp at h

/-! ## Contexts -/

@[simp] theorem State.context_setContext_same (s : State) (v : Fin 4) (c : Context) : (s.setContext v c).context v = c := by
  simp [State.context]

theorem State.context_setContext_other {s : State} {v w : Fin 4} {c : Context} (h : v ≠ w) :
    (s.setContext v c).context w = s.context w := by
  have : v.val ≠ w.val := fun e => h (Fin.ext e)
  simp [State.context, this]

/-- The contexts say all of the context file. -/
theorem State.ctx_ext {a b : Vector Context 4} (h : ∀ v : Fin 4, a[v.val] = b[v.val]) : a = b := by
  ext i hi
  · exact h ⟨i, hi⟩

@[simp] theorem State.context_unused (s : State) (v : Fin 4) (h : s.ctx = Vector.replicate 4 .unused) :
    s.context v = .unused := by simp [State.context, h]

/-- A context after FRAME_START latched a frame. -/
@[simp] theorem State.context_latchFrame (s : State) (c : FrameConfig) (v : Fin 4) :
    (s.latchFrame c).context v = initContext c.width.toNat c.height.toNat c.scan v := by
  simp [State.context]

/-- A frame whose two checks hold is sound once it is latched (R160 to R165). -/
theorem State.latchFrame_hasFrame (s : State) {c : FrameConfig} (hg : geometryOk c.width.toNat c.height.toNat = true)
    (hr : resourceOk c.width.toNat c.height.toNat c.fmt c.destBase.toNat c.destStride.toNat c.destSize.toNat = true) :
    (s.latchFrame c).HasFrame := by
  simp only [resourceOk, Bool.and_eq_true, decide_eq_true_eq] at hr
  refine ⟨hg, hr.1.1, ?_, rfl, fun v => ?_⟩
  · simp only [State.latchFrame_frame, Config.addrSpace]; omega
  · rw [State.context_latchFrame]
    simp only [State.latchFrame_frame]
    unfold Context.Sound
    split
    · next hv =>
      by_cases h0 : blockCount c.width.toNat c.height.toNat c.scan v.val = 0
      · simp [initContext, hv, h0]
      · simp [initContext, hv, h0]; omega
    · next hv => simp [initContext, hv]

/-! ## The checks of a macroblock command -/

/-- No check of a macroblock command fails exactly when its context may run (R201, R262). -/
theorem State.ctxError?_eq_none {s : State} {vb : Fin 4} : s.ctxError? vb = none ↔ s.Runs vb := by
  unfold State.ctxError? State.Runs
  split_ifs with h1 h2 h3 h4
  · simp [h1]
  · simp [Nat.not_lt.2 h2]
  · simp [h3]
  · simp [h4]
  · exact iff_of_true rfl ⟨by simpa using h1, Nat.not_le.1 h2, h3, h4⟩

/-! ## Coefficients -/

/-- The RAM is ready exactly when every entry is written. -/
theorem State.coefReady_iff {s : State} : s.coefReady = true ↔ s.CoefWritten := by
  unfold State.coefReady State.CoefWritten State.coefEntry
  simp only [List.all_eq_true]
  constructor
  · intro h n hn
    have := h _ (List.getElem_mem (l := s.coef.toList) (n := n) (by simpa using hn))
    simp only [Vector.getElem_toList] at this
    simp only [Vector.getElem?_eq_getElem hn, Option.getD_some]
    intro e
    rw [e] at this
    simp [CoefEntry.isWritten] at this
  · intro h e he
    obtain ⟨n, hn, rfl⟩ := List.getElem_of_mem he
    have hn' : n < 512 := by simpa using hn
    have := h n hn'
    simp only [Vector.getElem?_eq_getElem hn', Option.getD_some] at this
    simp only [Vector.getElem_toList]
    cases hc : s.coef[n] with
    | unwritten => exact absurd hc this
    | written v => rfl

/-! ## Meanings -/

/-- All that MB_DECODE can do: record the error its checks found, stop, or write its bytes and advance its context. -/
theorem execMbDecodeWith_cases {idct : Idct} {vb : Fin 4} {field : Bool} {s t : State}
    (h : execMbDecodeWith idct vb field s = .next t) :
    (∃ e, s.ctxError? vb = some e ∧ t = s.recordError e.code e.vb e.mb)
      ∨ (s.Runs vb ∧ s.CoefWritten
          ∧ (∀ w ∈ s.landing (s.mbWritesWith idct vb field), s.isMemory w.1 = true)
          ∧ ∃ n, t = (({ s with
                mem := Memory.writeAll s.mem (s.landing (s.mbWritesWith idct vb field))
                draws := s.draws + n } : State).setContext vb (s.context vb).advance).autoClearCoef) := by
  unfold execMbDecodeWith at h
  cases he : s.ctxError? vb with
  | some e => rw [he] at h; cases h; exact .inl ⟨e, rfl, rfl⟩
  | none =>
    rw [he] at h
    by_cases hc : s.coefReady = true
    · simp only [hc, Bool.true_eq_false, if_false] at h
      obtain ⟨u, hu, ht⟩ := Outcome.onNext_eq_next h
      unfold State.putCommand at hu
      rcases s.putBytes_cases (s.landing (s.mbWritesWith idct vb field)) _ with ⟨hm, e⟩ | ⟨w, -, -, e⟩
      · rw [e] at hu
        cases hu
        cases ht
        exact .inr ⟨State.ctxError?_eq_none.1 he, State.coefReady_iff.1 hc, hm, _, rfl⟩
      · rw [e] at hu; cases hu
    · simp only [Bool.not_eq_true] at hc
      simp [hc] at h

/-- All that MB_ABORT can do. -/
theorem execMbAbort_cases {vb : Fin 4} {s t : State} (h : execMbAbort vb s = .next t) :
    (∃ e, s.ctxError? vb = some e ∧ t = s.recordError e.code e.vb e.mb)
      ∨ (s.Runs vb ∧ t = ((s.setContext vb { s.context vb with state := .failed }).recordError .bitstream
          (BitVec.ofNat 2 vb.val) (s.context vb).mbIdx).autoClearCoef) := by
  unfold execMbAbort at h
  cases he : s.ctxError? vb with
  | some e => rw [he] at h; cases h; exact .inl ⟨e, rfl, rfl⟩
  | none => rw [he] at h; cases h; exact .inr ⟨State.ctxError?_eq_none.1 he, rfl⟩

/-- All that FRAME_END can do. -/
theorem execFrameEnd_cases {s t : State} (h : execFrameEnd s = .next t) :
    (s.fActive = false ∧ t = s.recordError .noFrame 0 0)
      ∨ (s.fActive = true ∧ s.leastRunning? = none ∧ t = { s with fActive := false })
      ∨ ∃ v, s.fActive = true ∧ s.leastRunning? = some v
          ∧ t = ({ s with fActive := false } : State).recordError .incomplete (BitVec.ofNat 2 v.val) (s.context v).mbIdx := by
  unfold execFrameEnd at h
  by_cases hf : s.fActive = false
  · rw [if_pos hf] at h; cases h; exact .inl ⟨hf, rfl⟩
  · rw [if_neg hf] at h
    have hf' : s.fActive = true := by simpa using hf
    cases hr : s.leastRunning? with
    | none => rw [hr] at h; cases h; exact .inr (.inl ⟨hf', rfl, rfl⟩)
    | some v => rw [hr] at h; cases h; exact .inr (.inr ⟨v, hf', rfl, rfl⟩)

/-- All that FRAME_START can do. -/
theorem execFrameStart_cases {s t : State} (h : execFrameStart s = .next t) :
    (geometryOk s.cmdCfg.width.toNat s.cmdCfg.height.toNat = false
        ∧ t = s.clearError.enterNoGeometry.recordError .geometry 0 0)
      ∨ (geometryOk s.cmdCfg.width.toNat s.cmdCfg.height.toNat = true
        ∧ resourceOk s.cmdCfg.width.toNat s.cmdCfg.height.toNat s.cmdCfg.fmt s.cmdCfg.destBase.toNat s.cmdCfg.destStride.toNat
            s.cmdCfg.destSize.toNat = false
        ∧ t = s.clearError.enterNoGeometry.recordError .resource 0 0)
      ∨ (geometryOk s.cmdCfg.width.toNat s.cmdCfg.height.toNat = true
        ∧ resourceOk s.cmdCfg.width.toNat s.cmdCfg.height.toNat s.cmdCfg.fmt s.cmdCfg.destBase.toNat s.cmdCfg.destStride.toNat
            s.cmdCfg.destSize.toNat = true
        ∧ t = s.clearError.enterNoGeometry.latchFrame s.cmdCfg) := by
  simp only [execFrameStart, State.raise] at h
  split at h
  · next h1 => cases h; exact .inl ⟨h1, rfl⟩
  · next h1 =>
    split at h
    · next h2 => cases h; exact .inr (.inl ⟨by simpa using h1, h2, rfl⟩)
    · next h2 => cases h; exact .inr (.inr ⟨by simpa using h1, by simpa using h2, rfl⟩)

/-! ## The host -/

/-- An access to the window that goes on was an aligned 32-bit one inside the window. -/
theorem windowAccess_next {width : AccessWidth} {o : Nat} {a : Outcome} {t : State} (h : windowAccess width o a = .next t) :
    o < Config.mmioSize ∧ width = .word ∧ o % 4 = 0 ∧ a = .next t := by
  unfold windowAccess at h
  split at h
  · cases h
  · split at h
    · cases h
    · next h1 h2 => simp only [not_or, ne_eq, Decidable.not_not] at h2; exact ⟨by omega, h2.1, h2.2, h⟩

/-- An aligned 32-bit access inside the window is taken. -/
theorem windowAccess_word {o : Nat} (a : Outcome) (h : o < Config.mmioSize) (h4 : o % 4 = 0) :
    windowAccess .word o a = a := by
  simp [windowAccess, h4, Nat.not_le.2 h]

/-- A read of the window answers the host and may draw free values; nothing else changes (R131). -/
theorem readWindow_eq (s : State) (o : Nat) :
    ∃ v n, readWindow s o = { s with response := .word v, draws := s.draws + n } := by
  unfold readWindow
  cases regAt? o with
  | none => exact ⟨0, 0, rfl⟩
  | some r => exact ⟨readReg s r, readDraws s r, rfl⟩

/-- All that aborting the command in flight can do: some of its bytes land (R342). -/
theorem State.abortInFlight_cases {s t : State} (h : s.abortInFlight = .next t) :
    (s.busy = false ∧ t = s)
      ∨ (s.busy = true ∧ (∀ w ∈ s.landingAborted s.pendingWrites, s.isMemory w.1 = true)
          ∧ ∃ n, t = { s with mem := Memory.writeAll s.mem (s.landingAborted s.pendingWrites), draws := s.draws + n }) := by
  unfold State.abortInFlight at h
  split at h
  · next hb =>
    rcases s.putBytes_cases (s.landingAborted s.pendingWrites) (s.pendingWrites.length + Config.coefN) with
      ⟨hm, e⟩ | ⟨w, -, -, e⟩
    · rw [e] at h; cases h; exact .inr ⟨hb, hm, _, rfl⟩
    · rw [e] at h; cases h
  · next hb => cases h; exact .inl ⟨by simpa using hb, rfl⟩

/-- All that a step can do: the datapath moves, the host moves, or the platform powers the block up. -/
theorem step_cases (s : State) :
    (s.inputs = [] ∧ step s = datapathStep s)
      ∨ (∃ rest, s.inputs = .datapath :: rest ∧ step s = datapathStep (s.withInputs rest))
      ∨ (∃ op rest, s.inputs = .host op :: rest ∧ step s = hostStep (s.withInputs rest) op)
      ∨ ∃ rest, s.inputs = .powerOn :: rest ∧ step s = (s.withInputs rest).powerOn := by
  unfold step
  match s.inputs with
  | [] => exact .inl ⟨rfl, rfl⟩
  | .datapath :: rest => exact .inr (.inl ⟨rest, rfl, rfl⟩)
  | .host op :: rest => exact .inr (.inr (.inl ⟨op, rest, rfl, rfl⟩))
  | .powerOn :: rest => exact .inr (.inr (.inr ⟨rest, rfl, rfl⟩))

/-- All that the datapath's turn can do: nothing while BUSY = 0, else execute the accepted word and complete (R138). -/
theorem datapathStep_cases {s t : State} (h : datapathStep s = .next t) :
    (s.busy = false ∧ t = s) ∨ (s.busy = true ∧ ∃ u, execute s = .next u ∧ t = u.complete) := by
  unfold datapathStep at h
  split at h
  · next hb =>
    obtain ⟨u, hu, ht⟩ := Outcome.onNext_eq_next h
    cases ht
    exact .inr ⟨hb, u, hu, rfl⟩
  · next hb => cases h; exact .inl ⟨by simpa using hb, rfl⟩

/-- All that a host store can do. -/
theorem hostStore_next {s t : State} {a : Nat} {v : Byte} (h : hostStore s a v = .next t) :
    s.isMemory a = true ∧ t = { s with mem := Memory.write s.mem a v, raced := if s.busy then a :: s.raced else s.raced } := by
  unfold hostStore at h
  split at h
  · next hm => cases h; exact ⟨hm, rfl⟩
  · cases h

/-- All that a host load can do. -/
theorem hostLoad_next {s t : State} {a : Nat} (h : hostLoad s a = .next t) :
    s.isMemory a = true ∧ ∃ n, t = { s with response := .byte (loadedByte s a), draws := s.draws + n } := by
  unfold hostLoad at h
  split at h
  · next hm => cases h; exact ⟨hm, _, rfl⟩
  · cases h

end Sys2Proof.Machine
end

