-- ==== Sys2Proof/Laws/PerInstr.lean ====
section
/-! SUPPORT. Statements made of every command as syntax, one lemma for each constructor of `Instr`. -/

namespace Sys2Proof

/-- A command is well-formed, its word carries its fields and nothing else (R100, R103), and the word matches the row of the
match/mask table that bears its mnemonic and no other row (R105). -/
def Laws.EncodesInTable.Statement (i : Instr) : Prop :=
  i.WellFormed = true ∧ Cmdw.ofWord (encode i) = i.cmdw ∧ decode (encode i) = .ok i
    ∧ opcodeRows.filter (fun r => r.selects (encode i)) = opcodeRows.filter (fun r => r.mnemonic = i.mnemonic)

theorem Laws.EncodesInTable.nop : Laws.EncodesInTable.Statement .nop := by
  unfold Laws.EncodesInTable.Statement; decide

theorem Laws.EncodesInTable.frameStart : Laws.EncodesInTable.Statement .frameStart := by
  unfold Laws.EncodesInTable.Statement; decide

theorem Laws.EncodesInTable.mbDecode (vb : Fin 4) (field : Bool) : Laws.EncodesInTable.Statement (.mbDecode vb field) := by
  unfold Laws.EncodesInTable.Statement; revert vb field; decide

theorem Laws.EncodesInTable.mbAbort (vb : Fin 4) : Laws.EncodesInTable.Statement (.mbAbort vb) := by
  unfold Laws.EncodesInTable.Statement; revert vb; decide

theorem Laws.EncodesInTable.frameEnd : Laws.EncodesInTable.Statement .frameEnd := by
  unfold Laws.EncodesInTable.Statement; decide

end Sys2Proof
end

