-- ==== Sys2Proof/Laws/Placement.lean ====
section
/-! SUPPORT. The placement maps (R207 to R211): their ranges, that they are one to one and onto, their inverses, and which
bytes each writer writes (R212, R245). -/

namespace Sys2Proof.Machine

/-- A luma sample lands inside the macroblock (R208 to R210). -/
theorem lumaXY_lt {reg k r c} (hk : k < 4) (hr : r < 8) (hc : c < 8) : (lumaXY reg k r c).1 < reg.width ∧ (lumaXY reg k r c).2 < reg.height := by
  have : k = 0 ∨ k = 1 ∨ k = 2 ∨ k = 3 := by omega
  cases reg <;> rcases this with rfl|rfl|rfl|rfl <;> simp [lumaXY, Regime.width, Regime.height] <;> omega

/-- A chroma sample lands inside the macroblock (R208 to R210). -/
theorem chromaXY_lt {reg k r c} (hk : k < 2) (hr : r < 8) (hc : c < 8) : 2 * (chromaXY reg k r c).1 < reg.width ∧ (chromaXY reg k r c).2 < reg.height := by
  have : k = 0 ∨ k = 1 := by omega
  cases reg <;> rcases this with rfl|rfl <;> simp [chromaXY, Regime.width, Regime.height] <;> omega

/-- Different luma samples land on different pixels (R211). -/
theorem lumaXY_inj {reg k r c k' r' c'} (hk : k < 4) (hr : r < 8) (hc : c < 8) (hk' : k' < 4) (hr' : r' < 8) (hc' : c' < 8) (h : lumaXY reg k r c = lumaXY reg k' r' c') : k = k' ∧ r = r' ∧ c = c' := by
  have h1 : k = 0 ∨ k = 1 ∨ k = 2 ∨ k = 3 := by omega
  have h2 : k' = 0 ∨ k' = 1 ∨ k' = 2 ∨ k' = 3 := by omega
  cases reg <;> rcases h1 with rfl|rfl|rfl|rfl <;> rcases h2 with rfl|rfl|rfl|rfl <;> simp [lumaXY] at h <;> omega

/-- Different samples of a chroma component land on different chroma columns and lines (R211). -/
theorem chromaXY_inj {reg k r c k' r' c'} (hk : k < 2) (hr : r < 8) (hc : c < 8) (hk' : k' < 2) (hr' : r' < 8) (hc' : c' < 8) (h : chromaXY reg k r c = chromaXY reg k' r' c') : k = k' ∧ r = r' ∧ c = c' := by
  have h1 : k = 0 ∨ k = 1 := by omega
  have h2 : k' = 0 ∨ k' = 1 := by omega
  cases reg <;> rcases h1 with rfl|rfl <;> rcases h2 with rfl|rfl <;> simp [chromaXY] at h <;> omega

/-- `lumaAt` undoes `lumaXY` (R240). -/
theorem lumaAt_lumaXY {reg k r c} (hk : k < 4) (hr : r < 8) (hc : c < 8) : lumaAt reg (lumaXY reg k r c).1 (lumaXY reg k r c).2 = (k, 8*r+c) := by
  have h1 : k = 0 ∨ k = 1 ∨ k = 2 ∨ k = 3 := by omega
  have q1 : (8 + c)/8 = 1 := by omega
  have q2 : (16 + c)/8 = 2 := by omega
  have q3 : (24 + c)/8 = 3 := by omega
  have q0 : c/8 = 0 := by omega
  cases reg <;> rcases h1 with rfl|rfl|rfl|rfl <;> simp [lumaXY, lumaAt, q0, q1,q2,q3] <;> omega

/-- `chromaAt` undoes `chromaXY` (R240). -/
theorem chromaAt_chromaXY {reg k r c} (hk : k < 2) (hr : r < 8) (hc : c < 8) : chromaAt reg (chromaXY reg k r c).1 (chromaXY reg k r c).2 = (k, 8*r+c) := by
  have h1 : k = 0 ∨ k = 1 := by omega
  cases reg <;> rcases h1 with rfl|rfl <;> simp [chromaXY, chromaAt] <;> omega

/-- Every pixel shows a luma sample (R211). -/
theorem lumaXY_surj {reg dx dy} (hx : dx < reg.width) (hy : dy < reg.height) : ∃ k r c, k < 4 ∧ r < 8 ∧ c < 8 ∧ lumaXY reg k r c = (dx, dy) := by
  cases reg <;> simp only [Regime.width, Regime.height] at hx hy
  · refine ⟨2*(dx/8)+dy/8, dy%8, dx%8, by omega, by omega, by omega, ?_⟩
    have h1 : dx/8 = 0 ∨ dx/8 = 1 := by omega
    have h2 : dy/8 = 0 ∨ dy/8 = 1 := by omega
    rcases h1 with h1|h1 <;> rcases h2 with h2|h2 <;> simp [h1,h2,lumaXY] <;> omega
  · refine ⟨2*(dx/8)+dy%2, dy/2, dx%8, by omega, by omega, by omega, ?_⟩
    have h1 : dx/8 = 0 ∨ dx/8 = 1 := by omega
    have h2 : dy%2 = 0 ∨ dy%2 = 1 := by omega
    rcases h1 with h1|h1 <;> rcases h2 with h2|h2 <;> simp [h1,h2,lumaXY] <;> omega
  · have h1 : dx/8 = 0 ∨ dx/8 = 1 ∨ dx/8=2 ∨ dx/8=3 := by omega
    rcases h1 with h1|h1|h1|h1
    · exact ⟨0, dy, dx%8, by omega, by omega, by omega, by simp [lumaXY]; omega⟩
    · exact ⟨2, dy, dx%8, by omega, by omega, by omega, by simp [lumaXY]; omega⟩
    · exact ⟨1, dy, dx%8, by omega, by omega, by omega, by simp [lumaXY]; omega⟩
    · exact ⟨3, dy, dx%8, by omega, by omega, by omega, by simp [lumaXY]; omega⟩

/-- Every chroma column and line shows a sample of each component (R211). -/
theorem chromaXY_surj {reg dx dy} (hx : 2*dx < reg.width) (hy : dy < reg.height) : ∃ k r c, k < 2 ∧ r < 8 ∧ c < 8 ∧ chromaXY reg k r c = (dx, dy) := by
  cases reg <;> simp only [Regime.width, Regime.height] at hx hy
  · exact ⟨dy/8, dy%8, dx, by omega, by omega, by omega, by simp [chromaXY]; omega⟩
  · exact ⟨dy%2, dy/2, dx, by omega, by omega, by omega, by simp [chromaXY]; omega⟩
  · exact ⟨dx/8, dy, dx%8, by omega, by omega, by omega, by simp [chromaXY]; omega⟩

/-- The luma writes (R212). -/
theorem mem_lumaWrites {f reg x0 y0 smp} {w : ByteAt} : w ∈ lumaWrites f reg x0 y0 smp ↔ ∃ k r c, k < 4 ∧ r < 8 ∧ c < 8 ∧ w = (lineAddr f (y0 + (lumaXY reg k r c).2) + 2 * (x0 + (lumaXY reg k r c).1), smp k (8 * r + c)) := by
  unfold lumaWrites
  simp only [List.mem_flatMap, List.mem_map, List.mem_range]
  constructor
  · rintro ⟨k,hk,r,hr,c,hc,rfl⟩; exact ⟨k,r,c,hk,hr,hc,rfl⟩
  · rintro ⟨k,r,c,hk,hr,hc,rfl⟩; exact ⟨k,hk,r,hr,c,hc,rfl⟩

/-- The chroma writes (R212). -/
theorem mem_chromaWrites {f reg x0 y0 smp} {w : ByteAt} : w ∈ chromaWrites f reg x0 y0 smp ↔ ∃ k r c, k < 2 ∧ r < 8 ∧ c < 8 ∧ (w = (lineAddr f (y0 + (chromaXY reg k r c).2) + 4 * (x0/2 + (chromaXY reg k r c).1) + 1, smp (6+k) (8 * r + c)) ∨ w = (lineAddr f (y0 + (chromaXY reg k r c).2) + 4 * (x0/2 + (chromaXY reg k r c).1) + 3, smp (4+k) (8 * r + c))) := by
  unfold chromaWrites
  simp only [List.mem_flatMap, List.mem_range]
  constructor
  · rintro ⟨k,hk,r,hr,c,hc,h⟩; exact ⟨k,r,c,hk,hr,hc,by simpa using h⟩
  · rintro ⟨k,r,c,hk,hr,hc,h⟩; exact ⟨k,hk,r,hr,c,hc,by simpa using h⟩

/-- The XRGB writes (R245). -/
theorem mem_xrgbWrites {f reg x0 y0 smp} {w : ByteAt} : w ∈ xrgbWrites f reg x0 y0 smp ↔ ∃ dx dy, dx < reg.width ∧ dy < reg.height ∧
   (w = (pixelAddr f x0 y0 dx dy, (pixelColour reg smp dx dy).b) ∨ w = (pixelAddr f x0 y0 dx dy + 1, (pixelColour reg smp dx dy).g) ∨ w = (pixelAddr f x0 y0 dx dy + 2, (pixelColour reg smp dx dy).r) ∨ w = (pixelAddr f x0 y0 dx dy + 3, 255)) := by
  unfold xrgbWrites
  simp only [List.mem_flatMap, List.mem_range]
  constructor
  · rintro ⟨dy,hy,dx,hx,h⟩; exact ⟨dx,dy,hx,hy,by simpa using h⟩
  · rintro ⟨dx,dy,hx,hy,h⟩; exact ⟨dy,hy,dx,hx,by simpa using h⟩

/-- A regime has the dimensions of the macroblock it is chosen for (R207). -/
theorem regimeOf_dims (k : MbKind) (sc : Scan) (f : Bool) : (regimeOf k sc f).width = k.width ∧ (regimeOf k sc f).height = k.height := by
  cases k <;> cases sc <;> cases f <;> exact ⟨rfl, rfl⟩

/-- A macroblock starts at an even column (R174). -/
theorem mbPos_x0_even (g : Geom) (v i) : (mbPos g v i).x0 % 2 = 0 := by
  unfold mbPos; split
  · simp only; omega
  · simp only; split <;> simp only <;> omega

end Sys2Proof.Machine
end

