-- ==== Sys2Proof/Tests/Slice0.lean ====
section
/-! SUPPORT. Tests of one step each, with expected values from the spec's own examples and vectors (95_test_vectors.md), and
for every obligation with hypotheses a witness that meets them. -/

namespace Sys2Proof.Machine

/-! ## Well-formedness: every check refuses an ill-formed word (R104) -/

theorem test_reserved_op_refused : Cmdw.illegal? ⟨0x05, 0, 0, 0⟩ = some .reservedOp := by decide
theorem test_last_reserved_op_refused : Cmdw.illegal? ⟨0xFF, 3, 1, 0⟩ = some .reservedOp := by decide
theorem test_rsv_refused : Cmdw.illegal? ⟨0x02, 0, 0, 1⟩ = some .nonzeroRsv := by decide
theorem test_vb_refused : Cmdw.illegal? ⟨0x01, 1, 0, 0⟩ = some .nonzeroVb := by decide
theorem test_field_refused : Cmdw.illegal? ⟨0x03, 2, 1, 0⟩ = some .nonzeroField := by decide
theorem test_short_word_refused : decodeBytes [0x02, 0x06, 0x00] = .error .shortWord := by decide
theorem test_legal_fields_accepted : Cmdw.WellFormed ⟨0x02, 3, 1, 0⟩ = true := by decide

/-! ## Decoding: words written out from the table of R103, `{RSV, FIELD, VB, OP}` -/

theorem test_decode_nop : decode (0b000000000000000000000#21 ++ 0b0#1 ++ 0b00#2 ++ 0b00000000#8) = .ok .nop := by decide
theorem test_decode_frame_start : decode (0b000000000000000000000#21 ++ 0b0#1 ++ 0b00#2 ++ 0b00000001#8) = .ok .frameStart := by
  decide
theorem test_decode_mb_decode : decode (0b000000000000000000000#21 ++ 0b1#1 ++ 0b01#2 ++ 0b00000010#8) = .ok (.mbDecode 1 true) := by
  decide
theorem test_decode_mb_abort : decode (0b000000000000000000000#21 ++ 0b0#1 ++ 0b10#2 ++ 0b00000011#8) = .ok (.mbAbort 2) := by
  decide
theorem test_decode_frame_end : decode (0b000000000000000000000#21 ++ 0b0#1 ++ 0b00#2 ++ 0b00000100#8) = .ok .frameEnd := by
  decide
/-- Section 3.1: RSV bits 11 and 31. -/
theorem test_decode_rsv_bits : decode 0x00000802 = .error .nonzeroRsv ∧ decode 0x80000002 = .error .nonzeroRsv := by decide
theorem test_decode_table_word : decodeTableWord 32 0x602 = some (.mbDecode 2 true) := by decide

/-! ## Small states -/

/-- A state with every coefficient written 0 and a frame latched from the given configuration. -/
def testFrame (size : Word) (mode : BitVec 2) (base stride bytes : Word) : State :=
  ({ State.reset with coef := Vector.replicate 512 (.written 0) } : State).latchFrame ⟨size, mode, base, stride, bytes⟩

/-- Program P1's frame: 32×16 progressive YUV422. -/
def frameP1 : State := testFrame 0x00100020 0 0x10000000 64 1024

/-- Program P3's frame: 64×24 interlaced YUV422. -/
def frameP3 : State := testFrame 0x00180040 1 0x10000000 128 3072

/-- A state whose next input is the given one. -/
def State.gets (s : State) (i : Input) : State := { s with inputs := [i] }

/-- What a next state shows, `none` for a fault or a refusal. -/
def shown {α : Type} (o : Outcome) (f : State → α) : Option α :=
  match o with
  | .next t => some (f t)
  | .fault _ => none
  | .refused _ => none

/-- The outcome is a next state. -/
def goesOn (o : Outcome) : Bool := (shown o fun _ => ()).isSome

theorem next_of_goesOn {o : Outcome} (h : goesOn o = true) : ∃ t, o = .next t := by
  cases o with
  | next t => exact ⟨t, rfl⟩
  | fault f => cases h
  | refused r => cases h

/-- The inverse transform that answers one constant. -/
def constIdct (v : Fin 256) : Idct := fun _ _ => v

/-! ## Commands -/

/-- R260's example. -/
theorem test_nop : shown (step ((State.reset.accept 0).gets .datapath)) (fun t => (t.busy, t.intStatus, t.errInfo)) = some (false, 1, 0) := by
  decide

/-- R160's example, and section 2.1 for 1920×1080 interlaced. -/
theorem test_frame_start_1080i :
    shown (exec .frameStart (({ State.reset with cfg := ⟨0x04380780, 1, 0x40000000, 3840, 4147200⟩ } : State).accept 1))
        (fun t => ((List.finRange 4).map (fun v => ((t.context v).mbCount, (t.context v).padX, (t.context v).padY)),
          readReg t .geomVbc, readReg t .geomPadY, readReg t .geomStripY))
      = some ([(2025, 0, 64), (2025, 105, 64), (2025, 90, 65), (2025, 75, 66)], 4, 64, 67) := by decide

/-- Section 2.4: 720×1080 fails GEOMETRY; afterwards STATUS = 4 and GEOM_STRIPY reads "none". -/
theorem test_frame_start_geometry_error :
    shown (step (({ State.reset with cfg := ⟨0x043802D0, 1, 0, 0, 0⟩ } : State).accept 1))
        (fun t => (t.errInfo, t.status, readReg t .geomStripY)) = some (2, 4, 0xFFFFFFFF) := by decide

/-- R201's example: the Y0 sample (0, 0) of video block 1's first macroblock goes to F_BASE + 32, and the context is DONE. -/
theorem test_mb_decode_p1 :
    (frameP1.mbWritesWith (constIdct 7) 1 false).head? = some (0x10000020, 7)
      ∧ shown (execMbDecodeWith (constIdct 7) 1 false frameP1) (fun t => ((t.context 1).mbIdx, (t.context 1).state)) = some (1, .done) := by
  decide +kernel

/-- Section 3.1: VB_RANGE on a progressive frame. -/
theorem test_mb_decode_vb_range : shown (exec (.mbDecode 2 false) frameP1) (fun t => (t.errInfo, t.errMb, t.mem)) = some (0x205, 0, []) := by
  decide

/-- R262's example. -/
theorem test_mb_abort_p3 :
    shown (exec (.mbAbort 1) frameP3) (fun t => (t.errInfo, t.errMb, (t.context 1).state, (t.context 0).state))
      = some (0x108, 0, .failed, .run) := by decide

/-- R262: a second MB_ABORT on the same context raises VB_FAILED. -/
theorem test_mb_abort_twice :
    shown (exec (.mbAbort 1) (frameP3.setContext 1 ⟨.failed, 0, 2, 1, 0⟩)) (fun t => t.errInfo) = some 0x106 := by decide

/-- R264's example. -/
theorem test_frame_end_all_done :
    shown (exec .frameEnd { frameP3 with ctx := Vector.replicate 4 ⟨.done, 1, 1, 0, 0⟩ }) State.status = some 0x0000AA08 := by decide

/-- R265: INCOMPLETE is attributed to the least context still RUN. -/
theorem test_frame_end_incomplete :
    shown (exec .frameEnd (frameP3.setContext 0 ⟨.done, 1, 1, 0, 0⟩)) (fun t => (t.errInfo, t.fActive)) = some (0x109, false) := by
  decide

/-! ## Placement, colour and the host -/

/-- Section 2.2, 1920×1080 interlaced: the last 16×16 and the first strip macroblock of block 3. -/
theorem test_mb_pos_1080i :
    mbPos (arrangement 1920 1080 .interlaced) 3 1964 = ⟨.std16, 1904, 1056⟩
      ∧ mbPos (arrangement 1920 1080 .interlaced) 3 1965 = ⟨.strip, 0, 1072⟩ := by decide

/-- Section 3.2: block starts of the macroblock at (16, 0). -/
theorem test_block_starts :
    [0, 1, 2, 3, 4, 5, 6, 7].map (fun k => (blockView frameP1.frame .std 16 0 k).1)
        = [0x10000020, 0x10000220, 0x10000030, 0x10000230, 0x10000023, 0x10000223, 0x10000021, 0x10000221]
      ∧ [1, 3, 5, 7].map (fun k => (blockView frameP1.frame .field 16 0 k).1) = [0x10000060, 0x10000070, 0x10000063, 0x10000061]
      ∧ [1, 3, 5, 7].map (fun k => (blockView frameP1.frame .strip 16 0 k).1) = [0x10000040, 0x10000050, 0x10000043, 0x10000041] := by
  decide

/-- Section 4. -/
theorem test_colours :
    convert 255 0 255 = ⟨0x13, 0xE0, 0xFF⟩ ∧ convert 0 255 0 = ⟨0xED, 0x23, 0x00⟩ ∧ convert 16 127 127 = ⟨0, 1, 0⟩ := by decide

/-- Section 5: `WR32 0x404, 0x7FFF8000`. -/
theorem test_coef_write :
    shown (step (State.reset.gets (.host (.write .word 0x404 0x7FFF8000)))) (fun t => (t.coefInt 2, t.coefInt 3)) = some (-32768, 32767) := by
  decide +kernel

/-- R141's example. -/
theorem test_w1c : shown (step (({ State.reset with intStatus := 7 } : State).gets (.host (.write .word 0x00C 2)))) State.intStatusWord = some 5 := by
  decide

/-- R131's example. -/
theorem test_read_stripy : shown (step (State.reset.gets (.host (.read .word 0x090)))) State.response = some (.word 0xFFFFFFFF) := by decide

/-- R341: a soft reset zeroes COEF and every register. -/
theorem test_soft_reset :
    shown (step (frameP3.gets (.host (.write .word 0x004 1)))) (fun t => (t.status, t.coefInt 511, t.geom.vbc)) = some (0, 0, 0) := by
  decide +kernel

/-- R108's examples of the assembler syntax. -/
theorem test_asm : (Instr.mbDecode 1 true).asm = "MB_DECODE vb=1, field=1" ∧ Instr.frameStart.asm = "FRAME_START" := by decide

/-! ## Facts about the small states -/

theorem frameP1_hasFrame : frameP1.HasFrame := State.latchFrame_hasFrame _ (by decide) (by decide)
theorem frameP3_hasFrame : frameP3.HasFrame := State.latchFrame_hasFrame _ (by decide) (by decide)

theorem replicate_written {s : State} {v : Half} (h : s.coef = Vector.replicate 512 (.written v)) : s.CoefWritten := by
  intro n hn
  simp [State.coefEntry, h, hn]

theorem frameP1_coefWritten : frameP1.CoefWritten := replicate_written rfl
theorem frameP1_runs : frameP1.Runs 0 ∧ frameP1.Runs 1 := by unfold State.Runs; decide
theorem frameP3_runs (v : Fin 4) : frameP3.Runs v := by unfold State.Runs; revert v; decide

/-- The addresses an MB_DECODE of P1's frame writes do not depend on the inverse transform, so they can be listed. -/
theorem frameP1_backed (idct : Idct) : frameP1.Backed idct 0 false := by
  have hmap : frameP1.destMap = [⟨0, 2 ^ 32⟩] := rfl
  have hw : frameP1.mbWritesWith idct 0 false = yuvWrites frameP1.frame .std 0 0 (samplesOf idct frameP1.coefInt) := rfl
  intro w h
  have hl : w.1 < 2 ^ 32 := by
    rw [hw] at h
    have hb : frameP1.frame.base.toNat = 0x10000000 := rfl
    have hs : frameP1.frame.stride.toNat = 64 := rfl
    rcases List.mem_append.1 h with h | h
    · obtain ⟨k, r, c, hk, hr, hc, rfl⟩ := mem_lumaWrites.1 h
      have := lumaXY_lt (reg := .std) hk hr hc
      simp only [Regime.width, Regime.height] at this
      simp only [lineAddr, hb, hs]; omega
    · obtain ⟨k, r, c, hk, hr, hc, rfl | rfl⟩ := mem_chromaWrites.1 h <;>
        (have := chromaXY_lt (reg := .std) hk hr hc
         simp only [Regime.width, Regime.height] at this
         simp only [lineAddr, hb, hs]; omega)
  have hl' : w.1 < 4294967296 := hl
  simp [State.isMemory, hmap, Config.addrSpace, hl']

theorem reset_inv : State.reset.Inv where
  memory := rfl
  frame := .inl ⟨rfl, rfl, rfl, fun v => by revert v; decide⟩
  error := fun _ => ⟨rfl, rfl⟩
  race := fun _ => rfl

theorem frameP3_inv : frameP3.Inv where
  memory := rfl
  frame := .inr frameP3_hasFrame
  error := fun _ => ⟨rfl, rfl⟩
  race := fun _ => rfl

/-! ## Witnesses: states and operands that meet the hypotheses of each obligation -/

theorem witness_DecodeIsExactlyEncode : ([0x02, 0x06, 0x00] : List Byte).length < 4 ∧ decode 0x602 = .ok (.mbDecode 2 true) := by decide

theorem witness_DecodeMatchesTheTable :
    decode 0x602 = .ok (.mbDecode 2 true) ∧ (∃ r ∈ opcodeRows, r.selects 0x602 = true) ∧ ∀ r ∈ opcodeRows, r.selects 0x005 = false := by
  decide

theorem witness_IllegalWordOnlyRecordsItsError :
    let s := (State.reset.accept 0x005).gets .datapath
    s.busy = true ∧ s.inputs = .datapath :: [] ∧ decode s.cmdWord = .error .reservedOp := by decide

/-- One state for each clause: a command that goes on, and one that faults. -/
theorem witness_StepRunsTheAcceptedCommand :
    (let s := (State.reset.accept 0x000).gets .datapath;
      s.busy = true ∧ s.inputs = .datapath :: [] ∧ decode s.cmdWord = .ok .nop ∧ exec .nop (s.withInputs []) = .next (s.withInputs []))
      ∧ (let s := (({ frameP1 with coef := Vector.replicate 512 .unwritten } : State).accept 0x002).gets .datapath;
        s.busy = true ∧ s.inputs = .datapath :: [] ∧ decode s.cmdWord = .ok (.mbDecode 0 false)
          ∧ exec (.mbDecode 0 false) (s.withInputs []) = .fault .unwrittenCoefficient)
      ∧ ∃ t, exec .nop ((State.reset.accept (encode .nop)).withInputs State.reset.inputs) = .next t :=
  ⟨⟨rfl, rfl, by decide, rfl⟩, ⟨rfl, rfl, by decide, by rfl⟩, ⟨_, rfl⟩⟩

theorem witness_DatapathIsIdleUnlessBusy :
    (State.reset.busy = false ∧ State.reset.inputs = [])
      ∧ ((State.reset.gets .datapath).busy = false ∧ (State.reset.gets .datapath).inputs = .datapath :: [])
      ∧ ((State.reset.accept 1).busy = true ∧ (State.reset.accept 1).inputs = []) := ⟨⟨rfl, rfl⟩, ⟨rfl, rfl⟩, ⟨rfl, rfl⟩⟩

theorem witness_CommandIsAcceptedOrDropped :
    (let s := State.reset.gets (.host (.write .word 0x040 1)); s.inputs = .host (.write .word 0x040 1) :: [] ∧ s.busy = false)
      ∧ (let s := (State.reset.accept 1).gets (.host (.write .word 0x040 2)); s.inputs = .host (.write .word 0x040 2) :: [] ∧ s.busy = true) :=
  ⟨⟨rfl, rfl⟩, ⟨rfl, rfl⟩⟩

theorem witness_CoefficientWriteStoresOrOverruns :
    (let s := State.reset.gets (.host (.write .word (0x400 + 4 * 255) 5));
      255 < 256 ∧ s.inputs = .host (.write .word (0x400 + 4 * 255) 5) :: [] ∧ s.busy = false)
      ∧ (let s := (State.reset.accept 1).gets (.host (.write .word (0x400 + 4 * 0) 5));
        0 < 256 ∧ s.inputs = .host (.write .word (0x400 + 4 * 0) 5) :: [] ∧ s.busy = true) := ⟨⟨by decide, rfl, rfl⟩, ⟨by decide, rfl, rfl⟩⟩

theorem witness_RegisterReadChangesNothing :
    ((State.reset.gets (.host (.read .word Reg.errInfo.offset))).inputs = .host (.read .word Reg.errInfo.offset) :: []
      ∧ ∀ j : Fin 256, Reg.errInfo ≠ .coef j) ∧
    let s := frameP1.gets (.host (.read .word (Reg.coef 255).offset))
    s.inputs = .host (.read .word (Reg.coef 255).offset) :: [] ∧ s.CoefWritten
      ∧ s.coefEntry (2 * (255 : Fin 256).val) = .written 0 ∧ s.coefEntry (2 * (255 : Fin 256).val + 1) = .written 0 :=
  ⟨⟨rfl, nofun⟩, rfl, replicate_written rfl, by decide +kernel, by decide +kernel⟩

theorem witness_RegisterMapIsExact : regAt? 0x7FC = some (.coef 255) ∧ regAt? 0x000 = some .id := by decide

theorem witness_BadAccessIsABusError :
    ((0x7FE < 0x800 ∧ 0x7FE % 4 ≠ 0) ∧ (State.reset.gets (.host (.read .word 0x7FE))).inputs = .host (.read .word 0x7FE) :: [])
      ∧ ((0x000 < 0x800 ∧ AccessWidth.half ≠ .word)
        ∧ (State.reset.gets (.host (.write .half 0x000 1))).inputs = .host (.write .half 0x000 1) :: []) :=
  ⟨⟨by decide, rfl⟩, ⟨by decide, rfl⟩⟩

/-- The last unmapped offset, a read-only register, and two words that differ in reserved bits only. -/
theorem witness_UnmappedAndReservedAreIgnored :
    (∀ r : Reg, r.offset ≠ 0x3FC) ∧ (State.reset.gets (.host (.write .word 0x3FC 1))).inputs = .host (.write .word 0x3FC 1) :: []
      ∧ (State.reset.gets (.host (.read .word 0x3FC))).inputs = .host (.read .word 0x3FC) :: []
      ∧ (State.reset.gets (.host (.write .word 0x090 1))).inputs = .host (.write .word 0x090 1) :: []
      ∧ (0x00000007#32).toNat % 8 = (0xFFFFFFFF#32).toNat % 8 ∧ (0x00000003#32).toNat % 4 = (0xFFFFFFFF#32).toNat % 4 := by
  refine ⟨fun r => ?_, rfl, rfl, rfl, by decide, by decide⟩
  cases r <;> simp [Reg.offset] <;> omega

theorem witness_ConfigurationWriteSparesTheAcceptedCommand :
    (State.reset.gets (.host (.write .word 0x030 9))).inputs = .host (.write .word 0x030 9) :: []
      ∧ (let s := ({ State.reset.accept 1 with inputs := [.host (.write .word 0x020 9), .datapath] } : State);
        0x020 ∈ [0x020, 0x024, 0x028, 0x02C, 0x030] ∧ s.busy = true ∧ s.inputs = .host (.write .word 0x020 9) :: .datapath :: []
          ∧ (∃ t, step s = .next t) ∧ ∃ u, step { s with inputs := .datapath :: [] } = .next u)
      ∧ Instr.mbAbort 3 ≠ .frameStart :=
  ⟨rfl, ⟨by decide, rfl, rfl, next_of_goesOn (by decide), next_of_goesOn (by decide)⟩, by decide⟩

theorem witness_InterruptRegisterWrites :
    (State.reset.gets (.host (.write .word 0x00C 7))).inputs = .host (.write .word 0x00C 7) :: []
      ∧ (State.reset.gets (.host (.write .word 0x010 7))).inputs = .host (.write .word 0x010 7) :: [] := ⟨rfl, rfl⟩

/-- BUSY rises in an acceptance, falls in a completion, and stays in a dropped write. -/
theorem witness_BusySpansAcceptanceToCompletion :
    (let s := State.reset.gets (.host (.write .word 0x040 1)); ∃ t, step s = .next t ∧ s.busy = false ∧ t.busy = true)
      ∧ (let s := State.reset.accept 0; ∃ t, step s = .next t ∧ s.busy = true ∧ t.busy = false)
      ∧ (let s := (State.reset.accept 0).gets (.host (.write .word 0x040 1)); ∃ t, step s = .next t ∧ s.busy = true ∧ t.busy = true) :=
  ⟨⟨_, rfl, rfl, rfl⟩, ⟨_, rfl, rfl, rfl⟩, ⟨_, rfl, rfl, rfl⟩⟩

theorem witness_EventFlagsHaveTheirOwnSteps :
    (∃ t, step (State.reset.accept 0) = .next t ∧ (State.reset.accept 0).intStatus.getLsbD 0 = false ∧ t.intStatus.getLsbD 0 = true)
      ∧ (let s := (State.reset.accept 0).gets (.host (.write .word 0x7FC 1));
        ∃ t, step s = .next t ∧ s.intStatus.getLsbD 2 = false ∧ t.intStatus.getLsbD 2 = true) :=
  ⟨⟨_, rfl, by decide, by decide⟩, ⟨_, rfl, by decide, by decide⟩⟩

theorem witness_StatusFields : (State.reset.gets (.host (.write .word 0x008 9))).inputs = .host (.write .word 0x008 9) :: [] := rfl

theorem witness_ContextStateTransitions :
    let s := frameP3.accept 0x103
    s.Inv ∧ ∃ t, step s = .next t ∧ (t.context 1).state ≠ (s.context 1).state :=
  ⟨⟨rfl, .inr frameP3_hasFrame, fun _ => ⟨rfl, rfl⟩, fun _ => rfl⟩, _, rfl, by decide⟩

/-- The smallest frame with a strip, in a buffer that ends at the top of the address space. -/
def cfgTop : FrameConfig := ⟨0x00080020, 0, 0xFFFFFE00, 64, 512⟩

theorem cfgTop_holds : cfgTop.GeometryHolds ∧ cfgTop.ResourceHolds := by
  unfold FrameConfig.GeometryHolds FrameConfig.ResourceHolds; decide

theorem witness_FrameStartLatchesTheFrame :
    ((State.reset.gets (.host (.write .word 0x040 1))).inputs = .host (.write .word 0x040 1) :: []
        ∧ (State.reset.gets (.host (.write .word 0x040 1))).busy = false)
      ∧ ({ State.reset with cfg := cfgTop } : State).cfg.GeometryHolds ∧ ({ State.reset with cfg := cfgTop } : State).cfg.ResourceHolds :=
  ⟨⟨rfl, rfl⟩, cfgTop_holds⟩

theorem witness_FrameStartInitialisesTheContexts :
    let s := ({ State.reset with cmdCfg := cfgTop } : State)
    s.cmdCfg.GeometryHolds ∧ s.cmdCfg.ResourceHolds ∧ (∃ t, exec .frameStart s = .next t)
      ∧ 1 < (arrangement 32 8 .progressive).vbc ∧ (arrangement 32 8 .progressive).vbc ≤ 2 :=
  ⟨cfgTop_holds.1, cfgTop_holds.2, next_of_goesOn (by decide), by decide, by decide⟩

/-- 16×8 has no geometry; 1920×1080 in a buffer that is one byte too small has no room. -/
theorem witness_FailedFrameStartLeavesNoGeometry :
    ¬ FrameConfig.GeometryHolds ⟨0x00080010, 0, 0, 0, 0⟩
      ∧ FrameConfig.GeometryHolds ⟨0x04380780, 1, 0x40000000, 3840, 4147199⟩
      ∧ ¬ FrameConfig.ResourceHolds ⟨0x04380780, 1, 0x40000000, 3840, 4147199⟩ := by
  unfold FrameConfig.GeometryHolds FrameConfig.ResourceHolds; decide

theorem witness_PaddingStartsAtAMultipleOfTheBlockCount : geometryOk 1920 1080 = true := by decide

theorem witness_CountsPartitionThePaddingRegion :
    geometryOk 64 24 = true ∧ 5 < (arrangement 64 24 .interlaced).padFull + stripCount 64 24
      ∧ (3 : Fin 4).val < (arrangement 64 24 .interlaced).vbc ∧ 1 < blockCount 64 24 .interlaced 3 := by decide

theorem witness_MacroblocksTileTheFrame : geometryOk 32 8 = true ∧ 31 < 32 ∧ 7 < 8 := by decide

/-- Both sides can hold, and both can fail (R177's examples). -/
theorem witness_LastBlockHoldsTheStripIffItsRunCoversIt :
    geometryOk 64 24 = true
      ∧ stripCount 64 24 ≤ blockCount 64 24 .interlaced (Scan.interlaced.vbc - 1) - normalCount 64 24 .interlaced
      ∧ geometryOk 1920 1048 = true
      ∧ ¬ stripCount 1920 1048 ≤ blockCount 1920 1048 .interlaced (Scan.interlaced.vbc - 1) - normalCount 1920 1048 .interlaced := by
  decide

theorem witness_MacroblockCommandsCheckInOrder :
    State.reset.fActive = false ∧ (frameP1.fActive = true ∧ frameP1.geom.vbc ≤ (2 : Fin 4).val)
      ∧ (let s := frameP3.setContext 1 ⟨.failed, 0, 2, 1, 0⟩;
        s.fActive = true ∧ (1 : Fin 4).val < s.geom.vbc ∧ (s.context 1).state = .failed)
      ∧ (let s := frameP3.setContext 1 ⟨.done, 2, 2, 1, 0⟩;
        s.fActive = true ∧ (1 : Fin 4).val < s.geom.vbc ∧ (s.context 1).state = .done) := by decide

theorem witness_MbDecodePlacesOneMacroblock :
    frameP1.Runs 0 ∧ frameP1.CoefWritten ∧ frameP1.Backed Config.idct 0 false ∧ frameP1.raced = [] :=
  ⟨frameP1_runs.1, frameP1_coefWritten, frameP1_backed _, rfl⟩

/-- A byte outside the writes, one inside, and one inside that the host raced for. -/
theorem witness_MbDecodeWritesExactlyItsBytes :
    frameP1.HasFrame ∧ frameP1.Runs 0 ∧ frameP1.CoefWritten ∧ frameP1.Backed (constIdct 7) 0 false
      ∧ (∀ w ∈ frameP1.mbWritesWith (constIdct 7) 0 false, w.1 ≠ 0x0FFFFFFF)
      ∧ (0x10000000, 7) ∈ frameP1.mbWritesWith (constIdct 7) 0 false ∧ 0x10000000 ∉ frameP1.raced
      ∧ (let s := ({ frameP1 with raced := [0x10000000] } : State);
        s.HasFrame ∧ s.Runs 0 ∧ s.CoefWritten ∧ (0x10000000, 7) ∈ s.mbWritesWith (constIdct 7) 0 false ∧ 0x10000000 ∈ s.raced) :=
  ⟨frameP1_hasFrame, frameP1_runs.1, frameP1_coefWritten, frameP1_backed _, by decide +kernel, by decide +kernel, by decide,
    frameP1_hasFrame, frameP1_runs.1, replicate_written rfl, by decide +kernel, by decide⟩

theorem witness_MacroblockCommandsIgnoreOtherContexts :
    (0 : Fin 4) ≠ 1 ∧ (∃ t, exec (.mbAbort 1) frameP3 = .next t) ∧ ∃ t, exec (.mbDecode 0 false) frameP1 = .next t :=
  ⟨by decide, ⟨_, rfl⟩, next_of_goesOn (by decide +kernel)⟩

theorem witness_MbDecodeStopsOutsideTheSpec :
    (let s := ({ frameP1 with coef := frameP1.coef.set 511 .unwritten } : State);
      s.Runs 0 ∧ 511 < 512 ∧ s.coefEntry 511 = .unwritten)
      ∧ (let s := ({ frameP1 with destMap := [] } : State);
        s.Runs 0 ∧ s.CoefWritten ∧ s.raced = [] ∧ (∃ v, (0x10000000, v) ∈ s.mbWritesWith Config.idct 0 false) ∧ s.isMemory 0x10000000 = false) := by
  refine ⟨⟨by unfold State.Runs; decide, by decide, by decide +kernel⟩, frameP1_runs.1, replicate_written rfl, rfl, ?_, rfl⟩
  exact ⟨_, List.mem_append_left _ (mem_lumaWrites.2 ⟨0, 0, 0, by decide, by decide, by decide, rfl⟩)⟩

theorem witness_FieldBitMattersOnlyOnInterlacedFullMacroblocks :
    frameP1.frame.scan = .progressive ∧ (mbPos frameP3.geom 3 (frameP3.context 3).mbIdx.toNat).kind = .strip := by decide

theorem witness_FieldBitChangesOnlyDestinationBytes :
    (∃ t, exec (.mbDecode 0 true) frameP3 = .next t) ∧ ∃ t, exec (.mbDecode 0 false) frameP3 = .next t :=
  ⟨next_of_goesOn (by decide +kernel), next_of_goesOn (by decide +kernel)⟩

/-- The last pixel, sample and chroma column of each regime. -/
theorem witness_SamplesMapOneToOneOntoTheMacroblock :
    (15 < Regime.std.width ∧ 15 < Regime.std.height ∧ 2 * 7 < Regime.std.width)
      ∧ (15 < Regime.field.width ∧ 15 < Regime.field.height ∧ 2 * 7 < Regime.field.width)
      ∧ (31 < Regime.strip.width ∧ 7 < Regime.strip.height ∧ 2 * 15 < Regime.strip.width) := by decide

theorem witness_YuvWritesAreTheBlockViews : 16 % 2 = 0 ∧ 2 * 7 < Regime.std.width ∧ 15 < Regime.std.height := by decide

theorem witness_WritesStayInsideTheFrame :
    frameP1.HasFrame ∧ frameP1.Runs 1 ∧ (0x10000020, 7) ∈ frameP1.mbWritesWith (constIdct 7) 1 false :=
  ⟨frameP1_hasFrame, frameP1_runs.2, by decide +kernel⟩

theorem witness_DifferentMacroblocksWriteDisjointBytes :
    frameP1.HasFrame ∧ frameP1.frame = frameP1.frame ∧ frameP1.Runs 0 ∧ frameP1.Runs 1
      ∧ ((0 : Fin 4), (frameP1.context 0).mbIdx) ≠ (1, (frameP1.context 1).mbIdx)
      ∧ (0x10000000, 7) ∈ frameP1.mbWritesWith (constIdct 7) 0 false ∧ (0x10000020, 7) ∈ frameP1.mbWritesWith (constIdct 7) 1 false :=
  ⟨frameP1_hasFrame, rfl, frameP1_runs.1, frameP1_runs.2, by decide, by decide +kernel, by decide +kernel⟩

theorem witness_WriteOrderWithinACommandDoesNotMatter :
    frameP1.HasFrame ∧ frameP1.Runs 0 ∧ Memory.wf [] = true
      ∧ (frameP1.mbWritesWith (constIdct 7) 0 false).reverse.Perm (frameP1.mbWritesWith (constIdct 7) 0 false) :=
  ⟨frameP1_hasFrame, frameP1_runs.1, rfl, List.reverse_perm _⟩

theorem witness_ConstantDcBlocksFillTheirPixels :
    frameP1.HasFrame ∧ frameP1.Runs 0 ∧ frameP1.raced = [] ∧ frameP1.frame.fmt = .yuv422
      ∧ (∀ k n, k < 8 → n < 64 → frameP1.coefInt (64 * k + n) = if n = 0 then 0 else 0)
      ∧ (∀ k, k < 8 → IdctDcValue (constIdct 7) 0 7) ∧ (∃ t, execMbDecodeWith (constIdct 7) 0 false frameP1 = .next t)
      ∧ frameP1.CoefWritten ∧ 2 * 7 < Regime.std.width ∧ 15 < Regime.std.height := by
  refine ⟨frameP1_hasFrame, frameP1_runs.1, rfl, rfl, fun k n hk hn => ?_, fun _ _ _ => rfl, next_of_goesOn (by decide +kernel),
    frameP1_coefWritten, by decide, by decide⟩
  have hc : frameP1.coef = Vector.replicate 512 (.written 0) := rfl
  have he : frameP1.coefEntry (64 * k + n) = .written 0 := by
    simp only [State.coefEntry, hc]
    rw [Vector.getElem?_eq_getElem (by omega)]
    simp
  simp [State.coefInt, State.coefBits, he]

theorem witness_ConvertIsMonotone :
    (16 : Byte).toNat ≤ 16 ∧ 236 ≤ (236 : Byte).toNat ∧ (0 : Byte).toNat ≤ (255 : Byte).toNat := by decide

theorem witness_NopOnlyCompletes :
    let s := (State.reset.accept 0).gets .datapath
    s.busy = true ∧ s.inputs = .datapath :: [] ∧ s.cmdWord = 0x00000000 := ⟨rfl, rfl, rfl⟩

theorem witness_MbAbortFailsItsContext : frameP3.Runs 3 := frameP3_runs 3

theorem witness_FrameEndReportsTheLeastUnfinishedContext :
    State.reset.fActive = false
      ∧ (let s := ({ frameP3 with ctx := Vector.replicate 4 ⟨.done, 1, 1, 0, 0⟩ } : State);
        s.fActive = true ∧ ∀ v : Fin 4, v.val < s.geom.vbc → (s.context v).state ≠ .run)
      ∧ (let s := frameP3.setContext 0 ⟨.done, 1, 1, 0, 0⟩;
        s.fActive = true ∧ (1 : Fin 4).val < s.geom.vbc ∧ (s.context 1).state = .run
          ∧ ∀ w : Fin 4, w.val < (1 : Fin 4).val → (s.context w).state ≠ .run) := by decide

/-- Two aborts and a decode in two orders that keep the order within each context. -/
theorem witness_InterleavingOfContextsDoesNotMatter :
    let c : Vector CoefEntry 512 := Vector.replicate 512 (.written 0)
    let l : List (Instr × Vector CoefEntry 512) := [(.mbDecode 1 false, c), (.mbAbort 0, c), (.mbAbort 1, c)]
    let l' : List (Instr × Vector CoefEntry 512) := [(.mbAbort 0, c), (.mbDecode 1 false, c), (.mbAbort 1, c)]
    frameP3.HasFrame ∧ frameP3.fActive = true ∧ Memory.wf frameP3.mem = true ∧ frameP3.raced = []
      ∧ (∀ i ∈ l, contextOf i.1 ≠ none) ∧ (∀ i ∈ l', contextOf i.1 ≠ none)
      ∧ (∀ v : Fin 4, l.filter (fun i => contextOf i.1 = some v) = l'.filter (fun i => contextOf i.1 = some v))
      ∧ ∃ t, frameP3.issueAll l = .next t := by
  refine ⟨frameP3_hasFrame, rfl, rfl, rfl, by simp [contextOf], by simp [contextOf], fun v => ?_, next_of_goesOn (by decide +kernel)⟩
  revert v
  simp [Fin.forall_fin_succ, contextOf]

theorem witness_OnlyTheFirstErrorIsRecorded :
    State.reset.errCode.code = 0
      ∧ (let s := ({ State.reset with errCode := .incomplete } : State);
        s.errCode.code ≠ 0 ∧ s.errCode ≠ .none ∧ Instr.frameEnd ≠ .frameStart ∧ ∃ t, exec .frameEnd s = .next t) :=
  ⟨rfl, by decide, by decide, by decide, _, rfl⟩

/-- A completion that records an error, and a soft reset that clears one. -/
theorem witness_ErrorRecordChangesOnlyAtCompletion :
    (∃ t, step (State.reset.accept 5) = .next t
      ∧ (t.errCode, t.errVb, t.errMb) ≠ ((State.reset.accept 5).errCode, (State.reset.accept 5).errVb, (State.reset.accept 5).errMb))
      ∧ (let s := ({ State.reset with errCode := .noFrame } : State).gets (.host (.write .word 0x004 1));
        ∃ t, step s = .next t ∧ (t.errCode, t.errVb, t.errMb) ≠ (s.errCode, s.errVb, s.errMb)) :=
  ⟨⟨_, rfl, by decide⟩, _, rfl, by decide⟩

/-- Idle, and with an MB_DECODE in flight. -/
theorem witness_PowerOnEntersTheResetState :
    (let s := State.reset.gets .powerOn; s.inputs = .powerOn :: [] ∧ s.busy = false ∧ ∀ w ∈ s.pendingWrites, s.isMemory w.1 = true)
      ∧ (let s := (frameP1.accept 0x002).gets .powerOn;
        s.inputs = .powerOn :: [] ∧ ∀ w ∈ s.pendingWrites, s.isMemory w.1 = true) :=
  ⟨⟨rfl, rfl, by decide⟩, rfl, frameP1_backed _⟩

theorem witness_SoftResetAbortsTheCommandInFlight :
    let s := (frameP1.accept 0x002).gets (.host (.write .word 0x004 3))
    s.inputs = .host (.write .word 0x004 3) :: [] ∧ (3#32).getLsbD 0 = true ∧ (∀ w ∈ s.pendingWrites, s.isMemory w.1 = true)
      ∧ State.reset.busy = false :=
  ⟨rfl, by decide, frameP1_backed _, rfl⟩

theorem witness_ControlWriteSetsAutoClear :
    (State.reset.gets (.host (.write .word 0x004 2))).inputs = .host (.write .word 0x004 2) :: [] ∧ (2#32).getLsbD 0 = false :=
  ⟨rfl, by decide⟩

/-- A load of the byte at the top of memory, and of one that the command in flight writes. -/
theorem witness_RacingLoadSeesOldOrNew :
    (let s := State.reset.gets (.host (.load 0xFFFFFFFF));
      s.inputs = .host (.load 0xFFFFFFFF) :: [] ∧ s.isMemory (0xFFFFFFFF#32).toNat = true)
      ∧ (let s := (frameP1.accept 0x002).gets (.host (.load 0x10000000));
        s.inputs = .host (.load 0x10000000) :: [] ∧ s.isMemory (0x10000000#32).toNat = true ∧ ∃ v, (0x10000000, v) ∈ s.pendingWrites) :=
  ⟨⟨rfl, by decide⟩, rfl, by decide, _, List.mem_append_left _ (mem_lumaWrites.2 ⟨0, 0, 0, by decide, by decide, by decide, rfl⟩)⟩

theorem witness_HostStoreWritesOneByte :
    (let s := State.reset.gets (.host (.store 0 9)); s.inputs = .host (.store 0 9) :: [] ∧ s.isMemory (0#32).toNat = true ∧ s.busy = false)
      ∧ (let s := (State.reset.accept 0).gets (.host (.store 0 9));
        s.inputs = .host (.store 0 9) :: [] ∧ s.isMemory (0#32).toNat = true ∧ s.busy = true) := ⟨⟨rfl, by decide, rfl⟩, rfl, by decide, rfl⟩

theorem witness_OnlyMbDecodeAndStoresChangeMemory :
    let s := State.reset.gets (.host (.store 0 9))
    ∃ t, step s = .next t ∧ Memory.read t.mem 0 ≠ Memory.read s.mem 0 := ⟨_, rfl, by decide⟩

theorem witness_StepKeepsMemoryCanonical :
    let s := State.reset.gets (.host (.store 0 9))
    Memory.wf s.mem = true ∧ ∃ t, step s = .next t := ⟨rfl, _, rfl⟩

/-- The reset state, and a state in the middle of a frame. -/
theorem witness_StepKeepsTheInvariant :
    (State.reset.Inv ∧ ∃ t, step State.reset = .next t) ∧ (frameP3.Inv ∧ ∃ t, step frameP3 = .next t) :=
  ⟨⟨reset_inv, _, rfl⟩, frameP3_inv, _, rfl⟩

theorem witness_LoadBlockFillsOneBlock : 7 < 8 ∧ State.reset.busy = false ∧ 63 < 64 ∧ 64 * 7 + 64 ≤ 512 := by decide

end Sys2Proof.Machine
end

section
/-! SUPPORT. How a host write of a register runs as a step (R23, R130, R133). -/

namespace Sys2Proof.Machine

/-- The register at a register's own offset is that register (R23). -/
@[simp] theorem regAt?_offset (r : Reg) : regAt? r.offset = some r := by
  cases r with
  | ctxMbIdx v | ctxMbCount v | ctxPadPos v => revert v; decide
  | coef j =>
    have hmod : (0x400 + 4 * j.val) % 4 = 0 := by omega
    have hlt : 0x400 + 4 * j.val < 0x800 := by omega
    simp [regAt?, Reg.offset, hmod, hlt]
  | _ => rfl

/-- Every register lies inside the window (R23). -/
theorem Reg.offset_lt_mmioSize (r : Reg) : r.offset < Config.mmioSize := by
  unfold Reg.offset Config.mmioSize
  split <;> omega

/-- Every register's offset is a multiple of 4 (R23). -/
theorem Reg.offset_mod_four (r : Reg) : r.offset % 4 = 0 := by
  unfold Reg.offset
  split <;> omega

/-- A step whose input is a host operation performs it (R130). -/
theorem step_of_host {s : State} {op : HostOp} {rest : List Input} (h : s.inputs = .host op :: rest) :
    step s = hostStep (s.withInputs rest) op := by
  simp only [step, h]

/-- `WR32` of a register's offset writes that register (R130, R133). -/
theorem step_of_write {s : State} (r : Reg) {d : Word} {rest : List Input}
    (h : s.inputs = .host (.write .word r.offset d) :: rest) : step s = writeReg (s.withInputs rest) d r := by
  rw [step_of_host h, hostStep, windowAccess_word _ r.offset_lt_mmioSize r.offset_mod_four, writeWindow, regAt?_offset]

end Sys2Proof.Machine
end

section
/-! SUPPORT. The interrupt output (R53) and the fields of STATUS (R26), read off the packed words. -/

namespace Sys2Proof.Machine

/-- `irq` bit by bit (R53). -/
theorem State.irq_iff (s : State) :
    s.irq = true ↔ ∃ i, i < 3 ∧ s.intStatus.getLsbD i = true ∧ s.intEnable.getLsbD i = true := by
  have hne : s.irq = true ↔ ¬ s.intStatus &&& s.intEnable = 0#3 := by simp [State.irq]
  rw [hne, BitVec.eq_of_getLsbD_eq_iff]
  simp

/-- ERR is 1 exactly when the recorded code is not 0 (R26, R300). -/
theorem State.errFlag_iff (s : State) : s.errFlag = true ↔ s.errCode.code ≠ 0 := by
  unfold State.errFlag
  cases s.errCode <;> decide

/-- ALL_DONE is 1 exactly when a geometry is latched and each of its contexts is DONE (R26). -/
theorem State.allDone_iff (s : State) :
    s.allDone = true ↔ s.geom.vbc ≠ 0 ∧ ∀ v : Fin 4, v.val < s.geom.vbc → (s.context v).state = .done := by
  have hctx (v : Fin 4) : (s.geom.vbc ≤ v.val ∨ (s.context v).state = .done)
      ↔ (v.val < s.geom.vbc → (s.context v).state = .done) := by rw [← Nat.not_lt, imp_iff_not_or]
  simp [State.allDone, hctx]

/-- The four flags of STATUS (R26). -/
theorem State.status_flags (s : State) :
    s.status.getLsbD 0 = s.busy ∧ s.status.getLsbD 1 = s.fActive ∧ s.status.getLsbD 2 = s.errFlag
      ∧ s.status.getLsbD 3 = s.allDone := by
  simp only [State.status, BitVec.getLsbD_append]
  simp

/-- The reserved bits of STATUS read 0 (R26). -/
theorem State.status_reserved (s : State) : s.status.extractLsb' 4 4 = 0 ∧ s.status.extractLsb' 16 16 = 0 := by
  simp (disch := decide) only [State.status, BitVec.extractLsb'_append_eq_of_le, BitVec.extractLsb'_append_eq_of_add_le]
  decide

/-- CTX_STATE[v] stands at bits `9+2v` and `8+2v` of STATUS (R26). -/
theorem State.status_ctxState (s : State) (v : Fin 4) :
    s.status.extractLsb' (8 + 2 * v.val) 2 = (s.context v).state.code := by
  match v with
  | 0 | 1 | 2 | 3 =>
    simp (disch := decide) only [State.status, BitVec.extractLsb'_append_eq_of_le, BitVec.extractLsb'_append_eq_of_add_le]
    exact BitVec.extractLsb'_eq_self

end Sys2Proof.Machine
end

section
/-! The obligations on the interrupt registers and STATUS (10_state.md). -/

namespace Sys2Proof.Machine

/-- Settles O14: `irq` by `State.irq_iff`; each write is the step that writes its register, read bit by bit. -/
theorem interruptRegisterWrites : Obligations.InterruptRegisterWrites := by
  unfold Obligations.InterruptRegisterWrites
  refine ⟨State.irq_iff, fun s d rest => ⟨fun h => ?intStatus, fun h => ?intEnable⟩⟩
  case intStatus =>
    refine ⟨_, step_of_write .intStatus h, rfl, fun i hi => ?_⟩
    simp [hi]
  case intEnable =>
    refine ⟨_, step_of_write .intEnable h, rfl, fun i hi => ?_⟩
    simp [hi]

/-- Settles O17: one lemma for each kind of field of the word, and the write of a read-only register. -/
theorem statusFields : Obligations.StatusFields := by
  unfold Obligations.StatusFields
  intro s
  obtain ⟨hbusy, hactive, herr, hdone⟩ := s.status_flags
  obtain ⟨hlow, hhigh⟩ := s.status_reserved
  simp only [readReg]
  refine ⟨hbusy, hactive, ?_, ?_, hlow, hhigh, s.status_ctxState, rfl, rfl, rfl, rfl, fun d rest h => step_of_write .status h⟩
  · rw [herr, s.errFlag_iff]
  · rw [hdone, s.allDone_iff]

end Sys2Proof.Machine
end

section
/-! SUPPORT. Which pixel every byte of an MB_DECODE belongs to (R212, R245), and that no two macroblocks of a frame cover the
same pixel (R174, R176). -/

namespace Sys2Proof.Machine

/-! ## The pixel of a byte -/

/-- Every regime is an even number of pixels wide (R208 to R210). -/
theorem Regime.width_even (reg : Regime) : reg.width % 2 = 0 := by cases reg <;> rfl

/-- Every byte of `WriteYUV422` is one of the two bytes of a pixel of the macroblock (R212). -/
theorem yuvWrites_pixel {f : Latched} {reg : Regime} {x0 y0 : Nat} {smp : Samples} {w : ByteAt} (hx0 : x0 % 2 = 0)
    (h : w ∈ yuvWrites f reg x0 y0 smp) :
    ∃ dx dy b, dx < reg.width ∧ dy < reg.height ∧ b < 2 ∧ w.1 = lineAddr f (y0 + dy) + 2 * (x0 + dx) + b := by
  rcases List.mem_append.1 h with h | h
  · obtain ⟨k, r, c, hk, hr, hc, rfl⟩ := mem_lumaWrites.1 h
    obtain ⟨hdx, hdy⟩ := lumaXY_lt (reg := reg) hk hr hc
    exact ⟨_, _, 0, hdx, hdy, by decide, rfl⟩
  · obtain ⟨j, r, c, hj, hr, hc, hw⟩ := mem_chromaWrites.1 h
    obtain ⟨hdx, hdy⟩ := chromaXY_lt (reg := reg) hj hr hc
    have heven := reg.width_even
    rcases hw with rfl | rfl
    · exact ⟨2 * (chromaXY reg j r c).1, _, 1, hdx, hdy, by decide, by simp only; omega⟩
    · exact ⟨2 * (chromaXY reg j r c).1 + 1, _, 1, by omega, hdy, by decide, by simp only; omega⟩

/-- Every byte of `WriteXRGB` is one of the four bytes of a pixel of the macroblock (R245). -/
theorem xrgbWrites_pixel {f : Latched} {reg : Regime} {x0 y0 : Nat} {smp : Samples} {w : ByteAt}
    (h : w ∈ xrgbWrites f reg x0 y0 smp) :
    ∃ dx dy b, dx < reg.width ∧ dy < reg.height ∧ b < 4 ∧ w.1 = lineAddr f (y0 + dy) + 4 * (x0 + dx) + b := by
  obtain ⟨dx, dy, hdx, hdy, hw⟩ := mem_xrgbWrites.1 h
  rcases hw with rfl | rfl | rfl | rfl
  · exact ⟨dx, dy, 0, hdx, hdy, by decide, rfl⟩
  · exact ⟨dx, dy, 1, hdx, hdy, by decide, rfl⟩
  · exact ⟨dx, dy, 2, hdx, hdy, by decide, rfl⟩
  · exact ⟨dx, dy, 3, hdx, hdy, by decide, rfl⟩

/-- Every byte an MB_DECODE writes is a byte of a pixel that its macroblock covers (R201, R212, R245). -/
theorem State.mbWritesWith_pixel {s : State} {idct : Idct} {vb : Fin 4} {field : Bool} {w : ByteAt}
    (h : w ∈ s.mbWritesWith idct vb field) :
    ∃ x y b, (mbPos s.geom vb (s.context vb).mbIdx.toNat).covers x y ∧ b < s.frame.fmt.bpp
      ∧ w.1 = lineAddr s.frame y + s.frame.fmt.bpp * x + b := by
  have heven := mbPos_x0_even s.geom vb (s.context vb).mbIdx.toNat
  simp only [State.mbWritesWith] at h
  generalize mbPos s.geom vb (s.context vb).mbIdx.toNat = m at h heven ⊢
  obtain ⟨hwidth, hheight⟩ := regimeOf_dims m.kind s.frame.scan field
  have hcovers {dx dy : Nat} (hdx : dx < (regimeOf m.kind s.frame.scan field).width)
      (hdy : dy < (regimeOf m.kind s.frame.scan field).height) : m.covers (m.x0 + dx) (m.y0 + dy) :=
    ⟨by omega, by omega, by omega, by omega⟩
  cases hfmt : s.frame.fmt with
  | yuv422 =>
    simp only [hfmt] at h
    obtain ⟨dx, dy, b, hdx, hdy, hb, hw⟩ := yuvWrites_pixel heven h
    exact ⟨_, _, b, hcovers hdx hdy, hb, hw⟩
  | xrgb =>
    simp only [hfmt] at h
    obtain ⟨dx, dy, b, hdx, hdy, hb, hw⟩ := xrgbWrites_pixel h
    exact ⟨_, _, b, hcovers hdx hdy, hb, hw⟩

/-- A byte offset inside a line of pixels is less than the line's length. -/
theorem pixelOffset_lt {bpp x b w : Nat} (hx : x < w) (hb : b < bpp) : bpp * x + b < w * bpp := by
  have hle : bpp * (x + 1) ≤ bpp * w := Nat.mul_le_mul_left bpp hx
  have hcomm : bpp * w = w * bpp := Nat.mul_comm bpp w
  have hsucc : bpp * (x + 1) = bpp * x + bpp := Nat.mul_succ bpp x
  omega

/-- Equal numbers, each written with a rest below the divisor, have equal quotients. -/
theorem quotient_unique {d q r q' r' : Nat} (hr : r < d) (hr' : r' < d) (h : r + d * q = r' + d * q') : q = q' := by
  have hd : 0 < d := Nat.zero_lt_of_lt hr
  exact ((Nat.div_mod_unique hd).2 ⟨h, hr⟩).1.symm.trans ((Nat.div_mod_unique hd).2 ⟨rfl, hr'⟩).1

/-- Lines do not overlap: a byte determines its pixel (R161, R212, R245). -/
theorem pixel_of_address {f : Latched} {x y b x' y' b' : Nat} (hline : f.w.toNat * f.fmt.bpp ≤ f.stride.toNat)
    (hx : x < f.w.toNat) (hb : b < f.fmt.bpp) (hx' : x' < f.w.toNat) (hb' : b' < f.fmt.bpp)
    (h : lineAddr f y + f.fmt.bpp * x + b = lineAddr f y' + f.fmt.bpp * x' + b') : x = x' ∧ y = y' := by
  have hoff := pixelOffset_lt hx hb
  have hoff' := pixelOffset_lt hx' hb'
  simp only [lineAddr, Nat.mul_comm _ f.stride.toNat] at h
  have hy : y = y' := quotient_unique (Nat.lt_of_lt_of_le hoff hline) (Nat.lt_of_lt_of_le hoff' hline) (by omega)
  subst hy
  exact ⟨quotient_unique hb hb' (by omega), rfl⟩

/-! ## Macroblocks in the frame -/

/-- A context that passes the checks of MB_DECODE has a macroblock of its video block left to place (R38, R39, R201). -/
theorem State.Runs.mbIdx_lt {s : State} {vb : Fin 4} (hr : s.Runs vb) (hf : s.HasFrame) :
    vb.val < s.frame.scan.vbc
      ∧ (s.context vb).mbIdx.toNat < blockCount s.frame.w.toNat s.frame.h.toNat s.frame.scan vb.val := by
  obtain ⟨-, hvbc, hfailed, hdone⟩ := hr
  obtain ⟨-, -, -, hgeom, hsound⟩ := hf
  rw [hgeom] at hvbc
  have hv : vb.val < s.frame.scan.vbc := hvbc
  have hc := hsound vb
  rw [Context.Sound, if_pos hv] at hc
  obtain ⟨-, -, -, -, hleft, -, hidle⟩ := hc
  refine ⟨hv, hleft (.inl ?_)⟩
  cases hstate : (s.context vb).state with
  | run => rfl
  | idle => exact absurd hstate hidle
  | done => exact absurd hstate hdone
  | failed => exact absurd hstate hfailed

/-- Every macroblock lies inside the frame (R175). -/
theorem mbPos_inside {w h : Nat} (hg : geometryOk w h = true) (sc : Scan) {v : Fin 4} {i : Nat} (hv : v.val < sc.vbc)
    (hi : i < blockCount w h sc v.val) :
    (mbPos (arrangement w h sc) v i).x0 + (mbPos (arrangement w h sc) v i).kind.width ≤ w
      ∧ (mbPos (arrangement w h sc) v i).y0 + (mbPos (arrangement w h sc) v i).kind.height ≤ h := by
  obtain ⟨-, -, -, -, -, hps⟩ := blockCount_facts hg sc
  have hshape : 0 < w ∧ w % 16 = 0 ∧ (h % 16 = 0 ∨ h % 16 = 8) := by simp [geometryOk] at hg; omega
  have hcol (n : Nat) : n % (w / 16) < w / 16 := Nat.mod_lt n (by omega)
  obtain ⟨-, hpos, hrow⟩ | ⟨-, p, -, -, -, ⟨-, hpos, hrow⟩ | ⟨-, hstrip, hpos⟩⟩ := mbPos_cases hg sc hv hi
  · have := hcol i
    simp only [hpos, MbKind.width, MbKind.height]
    omega
  · have := hcol p
    simp only [hpos, MbKind.width, MbKind.height]
    omega
  · simp only [hpos, MbKind.width, MbKind.height]
    simp only [stripCount] at hstrip
    split at hstrip <;> omega

/-- The padding macroblock that covers a pixel, counted along the padding region (R173). -/
def padNumberAt (w h : Nat) (sc : Scan) (x y : Nat) : Nat :=
  if y / 16 < h / 16 then (y / 16 - padStartRow h sc) * (w / 16) + x / 16
  else (h / 16 - padStartRow h sc) * (w / 16) + x / 32

/-- What a covered pixel says of its macroblock: above PS its row and column give the video block and the index; from PS on
they give its number in the padding region, which lies in the padding run of its video block (R173, R174). -/
theorem mbPos_covers_cases {w h : Nat} (hg : geometryOk w h = true) (sc : Scan) {v : Fin 4} {i x y : Nat}
    (hv : v.val < sc.vbc) (hi : i < blockCount w h sc v.val) (hc : (mbPos (arrangement w h sc) v i).covers x y) :
    (y / 16 < padStartRow h sc ∧ v.val = y / 16 % sc.vbc ∧ i = w / 16 * (y / 16 / sc.vbc) + x / 16)
      ∨ (padStartRow h sc ≤ y / 16 ∧ normalCount w h sc ≤ i
          ∧ padRunStart w h sc v.val + (i - normalCount w h sc) = padNumberAt w h sc x y
          ∧ padNumberAt w h sc x y < padRunStart w h sc (v.val + 1)) := by
  obtain ⟨-, -, -, -, -, hps⟩ := blockCount_facts hg sc
  obtain ⟨hx, hx', hy, hy'⟩ := hc
  obtain ⟨-, hpos, hrow⟩ | ⟨hn, p, hp, hend, -, ⟨-, hpos, hrow⟩ | ⟨hpad, -, hpos⟩⟩ := mbPos_cases hg sc hv hi
  · simp only [hpos, MbKind.width, MbKind.height] at hx hx' hy hy'
    have hyrow : y / 16 = v.val + sc.vbc * (i / (w / 16)) := by omega
    have hxcol : x / 16 = i % (w / 16) := by omega
    refine .inl ⟨hyrow ▸ hrow, ?_, ?_⟩
    · rw [hyrow, Nat.add_mul_mod_self_left, Nat.mod_eq_of_lt hv]
    · rw [hyrow, Nat.add_mul_div_left _ _ (Nat.zero_lt_of_lt hv), Nat.div_eq_of_lt hv, Nat.zero_add, hxcol, Nat.div_add_mod]
  · simp only [hpos, MbKind.width, MbKind.height] at hx hx' hy hy'
    have hyrow : y / 16 = padStartRow h sc + p / (w / 16) := by omega
    have hxcol : x / 16 = p % (w / 16) := by omega
    have hnum : padNumberAt w h sc x y = p := by
      rw [padNumberAt, if_pos (hyrow ▸ hrow), hyrow, hxcol, Nat.add_sub_cancel_left, Nat.div_add_mod']
    exact .inr ⟨hyrow ▸ Nat.le_add_right _ _, hn, hp.trans hnum.symm, hnum ▸ hend⟩
  · simp only [hpos, MbKind.width, MbKind.height] at hx hx' hy hy'
    have hnum : padNumberAt w h sc x y = p := by
      rw [padNumberAt, if_neg (by omega)]
      omega
    exact .inr ⟨by omega, hn, hp.trans hnum.symm, hnum ▸ hend⟩

/-- A padding run that starts before the end of another belongs to no later video block (R173). -/
theorem le_of_padRunStart_lt {w h : Nat} {sc : Scan} {v v' : Nat}
    (hlt : padRunStart w h sc v < padRunStart w h sc (v' + 1)) : v ≤ v' := by
  by_contra hgt
  exact Nat.not_lt.2 (padRunStart_mono w h sc (Nat.not_le.1 hgt)) hlt

/-- No pixel is covered by two macroblocks of a frame (R176). -/
theorem mbPos_covers_unique {w h : Nat} (hg : geometryOk w h = true) (sc : Scan) {v v' : Fin 4} {i i' x y : Nat}
    (hv : v.val < sc.vbc) (hi : i < blockCount w h sc v.val) (hv' : v'.val < sc.vbc) (hi' : i' < blockCount w h sc v'.val)
    (hc : (mbPos (arrangement w h sc) v i).covers x y) (hc' : (mbPos (arrangement w h sc) v' i').covers x y) :
    v = v' ∧ i = i' := by
  obtain ⟨hrow, hblock, hidx⟩ | ⟨hrow, hn, hnum, hend⟩ := mbPos_covers_cases hg sc hv hi hc
  · obtain ⟨-, hblock', hidx'⟩ | ⟨hrow', -⟩ := mbPos_covers_cases hg sc hv' hi' hc'
    · exact ⟨Fin.ext (hblock.trans hblock'.symm), hidx.trans hidx'.symm⟩
    · omega
  · obtain ⟨hrow', -⟩ | ⟨-, hn', hnum', hend'⟩ := mbPos_covers_cases hg sc hv' hi' hc'
    · omega
    · have hle : v.val ≤ v'.val := le_of_padRunStart_lt (w := w) (h := h) (sc := sc) (by omega)
      have hge : v'.val ≤ v.val := le_of_padRunStart_lt (w := w) (h := h) (sc := sc) (by omega)
      obtain rfl : v = v' := Fin.ext (Nat.le_antisymm hle hge)
      exact ⟨rfl, by omega⟩

/-- The pixel of a byte that an MB_DECODE of a latched frame writes lies inside the frame (R81). -/
theorem State.mbWritesWith_pixel_inside {s : State} {idct : Idct} {vb : Fin 4} {field : Bool} {w : ByteAt}
    (hf : s.HasFrame) (hr : s.Runs vb) (h : w ∈ s.mbWritesWith idct vb field) :
    ∃ x y b, x < s.frame.w.toNat ∧ y < s.frame.h.toNat ∧ b < s.frame.fmt.bpp
      ∧ w.1 = lineAddr s.frame y + s.frame.fmt.bpp * x + b
      ∧ (mbPos (arrangement s.frame.w.toNat s.frame.h.toNat s.frame.scan) vb (s.context vb).mbIdx.toNat).covers x y := by
  obtain ⟨hv, hi⟩ := hr.mbIdx_lt hf
  obtain ⟨hg, -, -, hgeom, -⟩ := hf
  obtain ⟨x, y, b, hc, hb, hw⟩ := State.mbWritesWith_pixel h
  rw [hgeom] at hc
  obtain ⟨hright, hbottom⟩ := mbPos_inside hg _ hv hi
  obtain ⟨-, hx, -, hy⟩ := id hc
  exact ⟨x, y, b, by omega, by omega, hb, hw, hc⟩

/-- A byte of a line of a frame lies between F_BASE and the end of the last line (R81). -/
theorem Latched.ownsByte_bounds {f : Latched} {a : Nat} (hline : f.w.toNat * f.fmt.bpp ≤ f.stride.toNat)
    (h : f.ownsByte a) : f.base.toNat ≤ a ∧ a < f.base.toNat + f.stride.toNat * f.h.toNat := by
  obtain ⟨y, b, hy, hb, rfl⟩ := h
  have hle : f.stride.toNat * (y + 1) ≤ f.stride.toNat * f.h.toNat := Nat.mul_le_mul_left _ hy
  have hsucc : f.stride.toNat * (y + 1) = y * f.stride.toNat + f.stride.toNat := by rw [Nat.mul_succ, Nat.mul_comm]
  omega

end Sys2Proof.Machine
end

section
/-! The obligations on the bytes of the frame that macroblocks write (20_memory.md). -/

namespace Sys2Proof.Machine

/-- Settles O37: each byte belongs to a pixel of the frame, so it lies in the first `F_W·bpp` bytes of that pixel's line. -/
theorem writesStayInsideTheFrame : Obligations.WritesStayInsideTheFrame := by
  unfold Obligations.WritesStayInsideTheFrame
  intro s idct vb field hf hr
  obtain ⟨-, hline, hspace, -, -⟩ := id hf
  refine ⟨hspace, fun w hw => ?_⟩
  obtain ⟨x, y, b, hx, hy, hb, haddr, -⟩ := State.mbWritesWith_pixel_inside hf hr hw
  have howns : s.frame.ownsByte w.1 :=
    ⟨y, s.frame.fmt.bpp * x + b, hy, pixelOffset_lt hx hb, by rw [haddr, lineAddr, Nat.add_assoc]⟩
  exact ⟨howns, Latched.ownsByte_bounds hline howns⟩

/-- Settles O38: a byte that both commands write belongs to one pixel, and one macroblock covers it. -/
theorem differentMacroblocksWriteDisjointBytes : Obligations.DifferentMacroblocksWriteDisjointBytes := by
  unfold Obligations.DifferentMacroblocksWriteDisjointBytes
  intro s t idct idct' vb vb' field field' hf hf' hframe hr hr' hne w hw w' hw' haddr
  obtain ⟨hv, hi⟩ := hr.mbIdx_lt hf
  obtain ⟨hv', hi'⟩ := hr'.mbIdx_lt hf'
  obtain ⟨x, y, b, hx, -, hb, ha, hc⟩ := State.mbWritesWith_pixel_inside hf hr hw
  obtain ⟨x', y', b', hx', -, hb', ha', hc'⟩ := State.mbWritesWith_pixel_inside hf' hr' hw'
  rw [hframe] at hv' hi' hx' hb' ha' hc'
  obtain ⟨hg, hline, -⟩ := hf
  obtain ⟨rfl, rfl⟩ := pixel_of_address hline hx hb hx' hb' (ha.symm.trans (haddr.trans ha'))
  obtain ⟨rfl, hidx⟩ := mbPos_covers_unique hg _ hv hi hv' hi' hc hc'
  exact hne (Prod.ext rfl (BitVec.eq_of_toNat_eq hidx))

end Sys2Proof.Machine
end

section
/-! SUPPORT. A command word read field by field (R100, R102): the fields of a word determine it, stand at their bit
positions, and say whether the word is legal (R103, R104). -/

namespace Sys2Proof

/-- A word is its fields put back together (R100). -/
theorem Cmdw.toWord_ofWord (w : Word) : (Cmdw.ofWord w).toWord = w := by
  simp (disch := decide) only [Cmdw.toWord, Cmdw.ofWord, BitVec.extractLsb'_append_extractLsb'_eq_extractLsb']
  exact BitVec.extractLsb'_eq_self

/-- Two words with the same fields are the same word (R100). -/
theorem Cmdw.ofWord_injective : Function.Injective Cmdw.ofWord :=
  Function.LeftInverse.injective Cmdw.toWord_ofWord

/-- A masked word equals a pattern exactly when each of its masked fields does (R100, R105). -/
theorem Cmdw.and_eq_iff_fields (w m p : Word) :
    w &&& m = p ↔
      (ofWord w).op &&& (ofWord m).op = (ofWord p).op ∧ (ofWord w).vb &&& (ofWord m).vb = (ofWord p).vb
        ∧ (ofWord w).field &&& (ofWord m).field = (ofWord p).field ∧ (ofWord w).rsv &&& (ofWord m).rsv = (ofWord p).rsv := by
  rw [← Cmdw.ofWord_injective.eq_iff]
  simp only [Cmdw.ofWord, Cmdw.mk.injEq, BitVec.extractLsb'_and]

/-- OP is bits [7:0] (R100). -/
theorem Cmdw.ofWord_op_toNat (w : Word) : (ofWord w).op.toNat = w.toNat % 256 := by
  simp [Cmdw.ofWord, BitVec.extractLsb'_toNat]

/-- VB is bits [9:8] (R100). -/
theorem Cmdw.ofWord_vb_toNat (w : Word) : (ofWord w).vb.toNat = w.toNat / 256 % 4 := by
  simp [Cmdw.ofWord, BitVec.extractLsb'_toNat, Nat.shiftRight_eq_div_pow]

/-- FIELD is bit 10 (R100). -/
theorem Cmdw.ofWord_field_toNat (w : Word) : (ofWord w).field.toNat = w.toNat / 1024 % 2 := by
  simp [Cmdw.ofWord, BitVec.extractLsb'_toNat, Nat.shiftRight_eq_div_pow]

/-- RSV is bits [31:11], all that is left of the word (R100). -/
theorem Cmdw.ofWord_rsv_toNat (w : Word) : (ofWord w).rsv.toNat = w.toNat / 2048 := by
  have hlt : w.toNat / 2048 < 2 ^ 21 := Nat.div_lt_of_lt_mul w.isLt
  simpa [Cmdw.ofWord, BitVec.extractLsb'_toNat, Nat.shiftRight_eq_div_pow] using hlt

/-- Fields are legal exactly when OP has a row in R103 and each field which that row says is 0 is 0 (R104). -/
theorem Cmdw.illegal?_eq_none_iff (c : Cmdw) :
    c.illegal? = none ↔ c.op ≤ 4 ∧ (c.vb = 0 ∨ c.op = 2 ∨ c.op = 3) ∧ (c.field = 0 ∨ c.op = 2) ∧ c.rsv = 0 := by
  have hvbFree : c.vbIsFree = false ↔ ¬ (c.op = 2 ∨ c.op = 3) := by simp [Cmdw.vbIsFree]
  have hfieldFree : c.fieldIsFree = false ↔ ¬ c.op = 2 := by simp [Cmdw.fieldIsFree]
  simp only [Cmdw.illegal?, hvbFree, hfieldFree, ← not_or]
  split
  · next hop => exact iff_of_false nofun fun ⟨h, _⟩ => BitVec.not_lt.2 h hop
  split
  · next hrsv => exact iff_of_false nofun fun ⟨_, _, _, h⟩ => hrsv h
  split
  · next hvb => exact iff_of_false nofun fun ⟨_, h, _⟩ => hvb h
  split
  · next hfield => exact iff_of_false nofun fun ⟨_, _, h, _⟩ => hfield h
  · next hop hrsv hvb hfield =>
    exact iff_of_true rfl ⟨BitVec.not_lt.1 hop, not_not.1 hvb, not_not.1 hfield, not_not.1 hrsv⟩

/-- A word decodes to a command exactly when its fields are legal and select that command (R102). -/
theorem decode_eq_ok_iff (w : Word) (i : Instr) :
    decode w = .ok i ↔ (Cmdw.ofWord w).illegal? = none ∧ (Cmdw.ofWord w).instr = i := by
  unfold decode
  cases (Cmdw.ofWord w).illegal? <;> simp

/-- A word is illegal exactly when its fields are not legal (R104). -/
theorem decode_eq_error_iff (w : Word) : (∃ e, decode w = .error e) ↔ ¬ (Cmdw.ofWord w).illegal? = none := by
  unfold decode
  cases (Cmdw.ofWord w).illegal? <;> simp

/-- The command that fields select has their opcode (R103). -/
theorem Cmdw.op_instr {c : Cmdw} (hop : c.op ≤ 4) : c.instr.op = c.op := by
  unfold Cmdw.instr
  split_ifs with h0 h1 h2 h3
  · exact h0.symm
  · exact h1.symm
  · exact h2.symm
  · exact h3.symm
  · show 4#8 = c.op
    bv_omega

end Sys2Proof
end

section
/-! SUPPORT. The match/mask table against the fields of a word: which words select a row, and which command that is (R105). -/

namespace Sys2Proof

/-- A row's mnemonic is a command's exactly when its pattern has the command's opcode (R103, R105). -/
theorem OpcodeRow.mnemonic_eq_iff_op {r : OpcodeRow} (hr : r ∈ opcodeRows) (i : Instr) :
    r.mnemonic = i.mnemonic ↔ i.op = (Cmdw.ofWord r.pattern).op := by
  revert r
  cases i with
  | nop | frameStart | frameEnd => decide
  | mbDecode vb field => revert vb field; decide
  | mbAbort vb => revert vb; decide

/-- Every command has a row (R105). -/
theorem exists_row_of_mnemonic (i : Instr) : ∃ r ∈ opcodeRows, r.mnemonic = i.mnemonic := by
  cases i <;> simp [opcodeRows, Instr.mnemonic]

/-- No two rows have one mnemonic (R105). -/
theorem OpcodeRow.eq_of_mnemonic_eq : ∀ r ∈ opcodeRows, ∀ r' ∈ opcodeRows, r.mnemonic = r'.mnemonic → r = r' := by
  decide

/-- A word selects a row exactly when its opcode is the row's and its fields are legal: each row's mask keeps OP and the
fields that R103 says are 0 for that opcode (R105). -/
theorem OpcodeRow.selects_iff_fields {r : OpcodeRow} (hr : r ∈ opcodeRows) (w : Word) :
    r.selects w = true ↔ (Cmdw.ofWord w).op = (Cmdw.ofWord r.pattern).op ∧ (Cmdw.ofWord w).illegal? = none := by
  have hop (x : BitVec 8) : x &&& 255#8 = x := BitVec.and_allOnes
  have hvb (x : BitVec 2) : x &&& 3#2 = x := BitVec.and_allOnes
  have hfield (x : BitVec 1) : x &&& 1#1 = x := BitVec.and_allOnes
  have hrsv (x : BitVec 21) : x &&& 2097151#21 = x := BitVec.and_allOnes
  rw [OpcodeRow.selects, beq_iff_eq, Cmdw.and_eq_iff_fields, Cmdw.illegal?_eq_none_iff]
  generalize Cmdw.ofWord w = c
  simp only [opcodeRows, List.mem_cons, List.not_mem_nil, or_false] at hr
  rcases hr with rfl | rfl | rfl | rfl | rfl <;> simp +contextual [Cmdw.ofWord, hop, hvb, hfield, hrsv]

/-- A word selects a row exactly when it decodes to a command that bears the row's mnemonic (R105). -/
theorem OpcodeRow.selects_iff_decode {r : OpcodeRow} (hr : r ∈ opcodeRows) (w : Word) :
    r.selects w = true ↔ ∃ i, decode w = .ok i ∧ r.mnemonic = i.mnemonic := by
  calc r.selects w = true
    _ ↔ (Cmdw.ofWord w).op = (Cmdw.ofWord r.pattern).op ∧ (Cmdw.ofWord w).illegal? = none := selects_iff_fields hr w
    _ ↔ (Cmdw.ofWord w).illegal? = none ∧ r.mnemonic = (Cmdw.ofWord w).instr.mnemonic := by
      rw [and_comm, mnemonic_eq_iff_op hr]
      refine and_congr_right fun hlegal => ?_
      rw [Cmdw.op_instr ((Cmdw.illegal?_eq_none_iff _).1 hlegal).1]
    _ ↔ ∃ i, decode w = .ok i ∧ r.mnemonic = i.mnemonic := by simp [decode_eq_ok_iff, and_assoc]

/-- Each command a word decodes to has a row that the word selects (R105). -/
theorem exists_selected_row {w : Word} {i : Instr} (h : decode w = .ok i) :
    ∃ r ∈ opcodeRows, r.selects w = true ∧ r.mnemonic = i.mnemonic := by
  obtain ⟨r, hr, hname⟩ := exists_row_of_mnemonic i
  exact ⟨r, hr, (OpcodeRow.selects_iff_decode hr w).2 ⟨i, h, hname⟩, hname⟩

end Sys2Proof
end

section
/-! SUPPORT. How an accepted illegal word completes (R104, R138, R139). -/

namespace Sys2Proof.Machine

/-- A step whose input is the datapath's turn, with a command in flight, is its completion step (R130). -/
theorem step_of_datapath {s : State} {rest : List Input} (h : s.inputs = .datapath :: rest) (hbusy : s.busy = true) :
    step s = completionStep (s.withInputs rest) := by
  simp only [step, h, datapathStep, State.withInputs_busy, hbusy, if_true]

/-- An accepted illegal word raises ILLEGAL_CMD and completes (R104, R138, R139). -/
theorem completionStep_of_illegal {s : State} {e : Illegal} (h : decode s.cmdWord = .error e) :
    completionStep s = .next (s.recordError .illegalCmd 0 0).complete := by
  simp only [completionStep, execute, h, execIllegal, State.raise, Outcome.onNext_next]

end Sys2Proof.Machine
end

section
/-! The obligations on the encoding of commands (30_encoding.md). -/

namespace Sys2Proof.Machine

/-- Settles O3: a word selects exactly the rows that bear its command's mnemonic, every command has a row, and mnemonics
tell rows apart. -/
theorem decodeMatchesTheTable : Obligations.DecodeMatchesTheTable := by
  unfold Obligations.DecodeMatchesTheTable
  refine ⟨rfl, fun w => ⟨fun r _ => beq_iff_eq, fun i => exists_selected_row,
    fun r hr => (OpcodeRow.selects_iff_decode hr w).1, ?oneRow, ?noRow⟩⟩
  case oneRow =>
    intro r hr r' hr' hsel hsel'
    obtain ⟨i, hi, hname⟩ := (OpcodeRow.selects_iff_decode hr w).1 hsel
    obtain ⟨i', hi', hname'⟩ := (OpcodeRow.selects_iff_decode hr' w).1 hsel'
    obtain rfl : i = i' := Except.ok.inj (hi.symm.trans hi')
    exact OpcodeRow.eq_of_mnemonic_eq r hr r' hr' (hname.trans hname'.symm)
  case noRow =>
    intro hnone
    cases hdec : decode w with
    | error e => exact ⟨e, rfl⟩
    | ok i =>
      obtain ⟨r, hr, hsel, -⟩ := exists_selected_row hdec
      exact absurd hsel (by simp [hnone r hr])

/-- Settles O4: the fields' legality read off the word's bits, and the completion step of an illegal word. -/
theorem illegalWordOnlyRecordsItsError : Obligations.IllegalWordOnlyRecordsItsError := by
  unfold Obligations.IllegalWordOnlyRecordsItsError
  refine ⟨fun w => ?_, fun s e rest hbusy hin hdec => ?_⟩
  · rw [decode_eq_error_iff, Cmdw.illegal?_eq_none_iff]
    simp only [← BitVec.toNat_inj, BitVec.le_def, Cmdw.ofWord_op_toNat, Cmdw.ofWord_vb_toNat, Cmdw.ofWord_field_toNat,
      Cmdw.ofWord_rsv_toNat, BitVec.ofNat_eq_ofNat, BitVec.toNat_ofNat]
    omega
  · rw [step_of_datapath hin hbusy, completionStep_of_illegal (s := s.withInputs rest) hdec]
    simp only [State.complete, State.recordError, State.withInputs, BitVec.or_assoc]
    rfl

/-- Settles O1: `enc` is that formula by definition, and each worked word is closed. -/
theorem workedEncodings : Obligations.WorkedEncodings := by
  unfold Obligations.WorkedEncodings
  exact ⟨fun _ _ _ => rfl, by decide⟩

end Sys2Proof.Machine
end

section
/-! SUPPORT. Accesses to the register window by offset (R23, R131 to R133): which one is a bus error, what an unmapped offset
and a read-only register do, and what a write of COEF leaves in each entry. -/

namespace Sys2Proof.Machine

/-! ## The access and the register map -/

/-- A narrow, wide or misaligned access inside the window is a bus error, whatever it would have done (R132). -/
theorem windowAccess_busError {width : AccessWidth} {o : Nat} (a : Outcome) (ho : o < 0x800)
    (hbad : width ≠ .word ∨ o % 4 ≠ 0) : windowAccess width o a = .fault (.mmioBusError o) := by
  have hin : ¬ Config.mmioSize ≤ o := Nat.not_le.2 ho
  rw [windowAccess, if_neg hin, if_pos hbad]

/-- The register found at an offset has that offset (R23). -/
theorem Reg.offset_of_regAt? {o : Nat} {r : Reg} (h : regAt? o = some r) : r.offset = o := by
  unfold regAt? at h
  split_ifs at h
  case neg => simpa using List.find?_some h
  all_goals
    cases h
    simp only [Reg.offset, Fin.val_ofNat]
    omega

/-- No register is found at an unmapped offset (R133). -/
theorem regAt?_eq_none_of_unmapped {o : Nat} (h : ∀ r : Reg, r.offset ≠ o) : regAt? o = none :=
  Option.eq_none_iff_forall_ne_some.2 fun r hr => h r (Reg.offset_of_regAt? hr)

/-- `WR32` of an aligned offset of the window writes the window there (R130, R133). -/
theorem step_of_windowWrite {s : State} {o : Nat} {d : Word} {rest : List Input} (ho : o < 0x800) (h4 : o % 4 = 0)
    (h : s.inputs = .host (.write .word o d) :: rest) : step s = writeWindow (s.withInputs rest) o d := by
  rw [step_of_host h, hostStep, windowAccess_word _ ho h4]

/-- `RD32` of an aligned offset of the window reads the window there (R130, R131). -/
theorem step_of_windowRead {s : State} {o : Nat} {rest : List Input} (ho : o < 0x800) (h4 : o % 4 = 0)
    (h : s.inputs = .host (.read .word o) :: rest) : step s = .next (readWindow (s.withInputs rest) o) := by
  rw [step_of_host h, hostStep, windowAccess_word _ ho h4]

/-! ## Writes that are ignored -/

/-- The read-only registers of the map (R23). -/
def Reg.isReadOnly : Reg → Bool
  | .id | .status | .errInfo | .errMb | .ctxMbIdx _ | .ctxMbCount _ | .ctxPadPos _
  | .geomVbc | .geomPerLine | .geomTotal | .geomPadY | .geomStripY => true
  | .ctrl | .intStatus | .intEnable | .frameSize | .frameMode | .destBase | .destStride | .destSize | .cmd | .coef _ => false

/-- A read-only register ignores a write (R133). -/
theorem writeReg_of_isReadOnly {r : Reg} (hr : r.isReadOnly = true) (s : State) (d : Word) : writeReg s d r = .next s := by
  cases r with
  | ctrl | intStatus | intEnable | frameSize | frameMode | destBase | destStride | destSize | cmd | coef _ => cases hr
  | _ => rfl

/-- The offsets of the read-only registers (R23). -/
theorem regAt?_readOnly : ∀ o ∈ [0x000, 0x008, 0x044, 0x048, 0x050, 0x054, 0x058, 0x05C, 0x060, 0x064, 0x068, 0x06C, 0x070, 0x074,
    0x078, 0x07C, 0x080, 0x084, 0x088, 0x08C, 0x090], (regAt? o).any Reg.isReadOnly = true := by decide

/-- Two words that a register does not tell apart are written in the same step (R133). -/
theorem step_congr_of_write {s : State} (r : Reg) {d d' : Word} {rest : List Input}
    (h : s.inputs = .host (.write .word r.offset d) :: rest) (hr : ∀ u, writeReg u d r = writeReg u d' r) :
    step s = step { s with inputs := .host (.write .word r.offset d') :: rest } :=
  calc step s
    _ = writeReg (s.withInputs rest) d r := step_of_write r h
    _ = writeReg (s.withInputs rest) d' r := hr _
    _ = step { s with inputs := .host (.write .word r.offset d') :: rest } :=
      (step_of_write (s := { s with inputs := .host (.write .word r.offset d') :: rest }) r rfl).symm

/-- Two words that agree modulo `2^k` have the same lowest `k` bits. -/
theorem extractLsb'_eq_of_mod_eq {d d' : Word} {k : Nat} (h : d.toNat % 2 ^ k = d'.toNat % 2 ^ k) :
    d.extractLsb' 0 k = d'.extractLsb' 0 k := by
  apply BitVec.eq_of_toNat_eq
  simpa [BitVec.extractLsb'_toNat] using h

/-- A write of CTRL depends on bits 0 and 1 of the word only (R25, R143). -/
theorem writeCtrl_congr {d d' : Word} (s : State) (h : d.extractLsb' 0 2 = d'.extractLsb' 0 2) :
    writeCtrl s d = writeCtrl s d' := by
  have hbit (i : Nat) (hi : i < 2) : d.getLsbD i = d'.getLsbD i := by
    simpa [BitVec.getLsbD_extractLsb', hi] using congrArg (BitVec.getLsbD · i) h
  rw [writeCtrl, hbit 0 (by decide), hbit 1 (by decide), writeCtrl]

/-! ## The coefficient RAM -/

/-- A write of a COEF word while BUSY = 0 is taken (R136). -/
theorem writeCoef_of_idle {s : State} (h : s.busy = false) (j : Nat) (d : Word) : writeCoef s j d = s.storeCoefWord j d := by
  simp [writeCoef, h]

/-- A write of a COEF word while BUSY = 1 is dropped (R136). -/
theorem writeCoef_of_busy {s : State} (h : s.busy = true) (j : Nat) (d : Word) : writeCoef s j d = s.overrun := by
  simp [writeCoef, h]

/-- Entry by entry, what a write of COEF word `j` leaves (R46, R136). -/
theorem State.coefEntry_storeCoefWord (s : State) {j : Nat} (d : Word) (hj : j < 256) (n : Nat) :
    (s.storeCoefWord j d).coefEntry n =
      if n = 2 * j + 1 then .written (d.extractLsb' 16 16) else if n = 2 * j then .written (d.extractLsb' 0 16)
      else s.coefEntry n := by
  simp only [State.coefEntry, State.storeCoefWord_coef, Vector.getElem?_setIfInBounds, eq_comm (a := n)]
  split
  · rw [if_pos (by omega), Option.getD_some]
  split
  · rw [if_pos (by omega), Option.getD_some]
  · rfl

end Sys2Proof.Machine
end

section
/-! SUPPORT. BUSY, CMDWORD and the configuration remembered with it (R48, R134, R137): what a register write, a host
operation and a step can do to them. -/

namespace Sys2Proof.Machine

/-- The command in flight, or its absence, is the same in both states (R48). -/
structure State.SameCommand (s t : State) : Prop where
  busy : t.busy = s.busy
  cmdWord : t.cmdWord = s.cmdWord
  cmdCfg : t.cmdCfg = s.cmdCfg

/-- A write of CMD while BUSY = 0 is accepted (R134). -/
theorem writeCmd_of_idle {s : State} (h : s.busy = false) (d : Word) : writeCmd s d = s.accept d := by
  simp [writeCmd, h]

/-- A write of CMD while BUSY = 1 is dropped (R135). -/
theorem writeCmd_of_busy {s : State} (h : s.busy = true) (d : Word) : writeCmd s d = s.overrun := by
  simp [writeCmd, h]

/-- Either reset leaves no command in flight (R340, R341). -/
theorem State.busy_of_resetBlock {o : Outcome} {k : Vector CoefEntry 512} {t : State}
    (h : o.onNext (fun u => .next (u.resetBlock k)) = .next t) : t.busy = false := by
  obtain ⟨u, -, ht⟩ := Outcome.onNext_eq_next h
  cases ht
  rfl

/-- A write of a register leaves the command in flight alone, or it is a write of CMD that is accepted, or a soft reset
(R134, R137, R143). -/
theorem writeReg_command_cases {s t : State} {d : Word} {r : Reg} (h : writeReg s d r = .next t) :
    s.SameCommand t ∨ (r = .cmd ∧ s.busy = false ∧ t = s.accept d) ∨ (r = .ctrl ∧ d.getLsbD 0 = true ∧ t.busy = false) := by
  cases r with
  | cmd =>
    cases h
    cases hbusy : s.busy with
    | false => exact .inr (.inl ⟨rfl, rfl, writeCmd_of_idle hbusy d⟩)
    | true => exact .inl (writeCmd_of_busy hbusy d ▸ ⟨rfl, rfl, rfl⟩)
  | ctrl =>
    simp only [writeReg, writeCtrl] at h
    split at h
    · next hreset => exact .inr (.inr ⟨rfl, hreset, State.busy_of_resetBlock h⟩)
    · cases h; exact .inl ⟨rfl, rfl, rfl⟩
  | coef j =>
    cases h
    cases hbusy : s.busy with
    | false => exact .inl (writeCoef_of_idle hbusy j d ▸ ⟨rfl, rfl, rfl⟩)
    | true => exact .inl (writeCoef_of_busy hbusy j d ▸ ⟨rfl, rfl, rfl⟩)
  | _ => cases h; exact .inl ⟨rfl, rfl, rfl⟩

/-- A host operation leaves the command in flight alone, or it is a write of CMD that is accepted, or a soft reset
(R134, R137, R143). -/
theorem hostStep_command_cases {s t : State} {op : HostOp} (h : hostStep s op = .next t) :
    s.SameCommand t ∨ (∃ d, op = .write .word 0x040 d ∧ s.busy = false ∧ t = s.accept d)
      ∨ ∃ d, op = .write .word 0x004 d ∧ d.getLsbD 0 = true ∧ t.busy = false := by
  cases op with
  | read width o =>
    obtain ⟨-, -, -, hread⟩ := windowAccess_next h
    obtain ⟨v, n, hv⟩ := readWindow_eq s o
    cases hread
    exact .inl (hv ▸ ⟨rfl, rfl, rfl⟩)
  | write width o d =>
    obtain ⟨-, rfl, -, hwrite⟩ := windowAccess_next h
    unfold writeWindow at hwrite
    split at hwrite
    · next r hr =>
      obtain rfl := Reg.offset_of_regAt? hr
      obtain hsame | ⟨rfl, hidle, ht⟩ | ⟨rfl, hreset, ht⟩ := writeReg_command_cases hwrite
      · exact .inl hsame
      · exact .inr (.inl ⟨d, rfl, hidle, ht⟩)
      · exact .inr (.inr ⟨d, rfl, hreset, ht⟩)
    · cases hwrite; exact .inl ⟨rfl, rfl, rfl⟩
  | load a => obtain ⟨-, n, rfl⟩ := hostLoad_next h; exact .inl ⟨rfl, rfl, rfl⟩
  | store a v => obtain ⟨-, rfl⟩ := hostStore_next h; exact .inl ⟨rfl, rfl, rfl⟩

/-- What may clear BUSY: a completion of the command in flight, a soft reset, or a power-on (R137, R138, R340, R341). -/
def State.CommandEnds (s t : State) : Prop :=
  (∃ u rest, (s.inputs = [] ∧ rest = [] ∨ s.inputs = .datapath :: rest) ∧ execute (s.withInputs rest) = .next u ∧ t = u.complete)
    ∨ (∃ d rest, s.inputs = .host (.write .word 0x004 d) :: rest ∧ d.getLsbD 0 = true)
    ∨ ∃ rest, s.inputs = .powerOn :: rest

/-- A datapath's turn keeps the state but for its input, or completes the command in flight (R130, R138). -/
theorem datapathTurn_command_cases {s t : State} {rest : List Input}
    (hin : s.inputs = [] ∧ rest = [] ∨ s.inputs = .datapath :: rest) (h : datapathStep (s.withInputs rest) = .next t) :
    s.SameCommand t ∨ (t.busy = false ∧ s.CommandEnds t) := by
  obtain ⟨-, rfl⟩ | ⟨-, u, hu, rfl⟩ := datapathStep_cases h
  · exact .inl ⟨rfl, rfl, rfl⟩
  · exact .inr ⟨rfl, .inl ⟨u, rest, hin, hu, rfl⟩⟩

/-- A step leaves the command in flight alone, accepts one while BUSY = 0, or ends with none (R134, R137). -/
theorem step_command_cases {s t : State} (h : step s = .next t) :
    s.SameCommand t
      ∨ (∃ d rest, s.inputs = .host (.write .word 0x040 d) :: rest ∧ s.busy = false ∧ t.cmdWord = d)
      ∨ (t.busy = false ∧ s.CommandEnds t) := by
  obtain ⟨hin, hs⟩ | ⟨rest, hin, hs⟩ | ⟨op, rest, hin, hs⟩ | ⟨rest, hin, hs⟩ := step_cases s <;> rw [hs] at h
  · have hself : s.withInputs [] = s := hin ▸ rfl
    exact (datapathTurn_command_cases (.inl ⟨hin, rfl⟩) (hself ▸ h)).imp_right .inr
  · exact (datapathTurn_command_cases (.inr hin) h).imp_right .inr
  · obtain hsame | ⟨d, rfl, hidle, rfl⟩ | ⟨d, rfl, hreset, ht⟩ := hostStep_command_cases h
    · exact .inl ⟨hsame.busy, hsame.cmdWord, hsame.cmdCfg⟩
    · exact .inr (.inl ⟨d, rest, hin, hidle, rfl⟩)
    · exact .inr (.inr ⟨ht, .inr (.inl ⟨d, rest, hin, hreset⟩)⟩)
  · exact .inr (.inr ⟨State.busy_of_resetBlock h, .inr (.inr ⟨rest, hin⟩)⟩)

end Sys2Proof.Machine
end

section
/-! SUPPORT. No command but FRAME_START reads the configuration, and FRAME_START reads the one remembered at its acceptance only
(R140): every meaning commutes with a change of the registers. -/

namespace Sys2Proof.Machine

/-- The state with other configuration registers, and the remembered configuration changed by `f`. With `f = id` this is what
a configuration write does. -/
def State.mapConfig (s : State) (c : FrameConfig) (f : FrameConfig → FrameConfig) : State :=
  { s with cfg := c, cmdCfg := f s.cmdCfg }

/-- A change of the configuration carried through an outcome. -/
def Outcome.mapConfig (o : Outcome) (c : FrameConfig) (f : FrameConfig → FrameConfig) : Outcome :=
  o.onNext fun t => .next (t.mapConfig c f)

/-- A change of the configuration before the rest of a computation that commutes with it is one after that rest. -/
theorem Outcome.mapConfig_onNext {c : FrameConfig} {f : FrameConfig → FrameConfig} (o : Outcome) {g : State → Outcome}
    (hg : ∀ t : State, g (t.mapConfig c f) = (g t).mapConfig c f) :
    (o.mapConfig c f).onNext g = (o.onNext g).mapConfig c f := by
  cases o with
  | next t => exact hg t
  | fault r | refused r => rfl

/-! ## A configuration write -/

/-- A write of a configuration register changes the configuration registers only (R140). -/
theorem step_of_configWrite {s : State} {o : Nat} {d : Word} {rest : List Input}
    (ho : o ∈ [0x020, 0x024, 0x028, 0x02C, 0x030]) (h : s.inputs = .host (.write .word o d) :: rest) :
    ∃ c, step s = .next ((s.withInputs rest).mapConfig c id) := by
  simp only [List.mem_cons, List.not_mem_nil, or_false] at ho
  obtain rfl | rfl | rfl | rfl | rfl := ho
  · exact ⟨_, step_of_write .frameSize h⟩
  · exact ⟨_, step_of_write .frameMode h⟩
  · exact ⟨_, step_of_write .destBase h⟩
  · exact ⟨_, step_of_write .destStride h⟩
  · exact ⟨_, step_of_write .destSize h⟩

/-! ## What the meanings read is outside the configuration -/

variable (s : State) (c : FrameConfig) (f : FrameConfig → FrameConfig)

@[simp] theorem State.isMemory_mapConfig (a : Nat) : (s.mapConfig c f).isMemory a = s.isMemory a := rfl

@[simp] theorem State.ctxError?_mapConfig (vb : Fin 4) : (s.mapConfig c f).ctxError? vb = s.ctxError? vb := rfl

@[simp] theorem State.coefReady_mapConfig : (s.mapConfig c f).coefReady = s.coefReady := rfl

@[simp] theorem State.leastRunning?_mapConfig : (s.mapConfig c f).leastRunning? = s.leastRunning? := rfl

@[simp] theorem State.mbWritesWith_mapConfig (idct : Idct) (vb : Fin 4) (field : Bool) :
    (s.mapConfig c f).mbWritesWith idct vb field = s.mbWritesWith idct vb field := rfl

/-! ## The meanings -/

/-- Putting bytes into memory commutes with a change of the configuration (R72, R140). -/
theorem State.putBytes_mapConfig (ws : List ByteAt) (n : Nat) :
    (s.mapConfig c f).putBytes ws n = (s.putBytes ws n).mapConfig c f := by
  simp only [State.putBytes, State.isMemory_mapConfig]
  split <;> rfl

/-- MB_DECODE commutes with a change of the configuration (R140, R201). -/
theorem execMbDecodeWith_mapConfig (idct : Idct) (vb : Fin 4) (field : Bool) :
    execMbDecodeWith idct vb field (s.mapConfig c f) = (execMbDecodeWith idct vb field s).mapConfig c f := by
  unfold execMbDecodeWith
  rw [State.ctxError?_mapConfig]
  split
  · rfl
  by_cases hready : s.coefReady = false
  · rw [if_pos hready, if_pos ((s.coefReady_mapConfig c f).trans hready)]
    rfl
  · rw [if_neg hready, if_neg (s.coefReady_mapConfig c f ▸ hready)]
    have hput : (s.mapConfig c f).putCommand ((s.mapConfig c f).mbWritesWith idct vb field)
        = (s.putCommand (s.mbWritesWith idct vb field)).mapConfig c f := State.putBytes_mapConfig ..
    rw [hput]
    exact Outcome.mapConfig_onNext _ fun t => rfl

/-- MB_ABORT commutes with a change of the configuration (R140, R262). -/
theorem execMbAbort_mapConfig (vb : Fin 4) : execMbAbort vb (s.mapConfig c f) = (execMbAbort vb s).mapConfig c f := by
  simp only [execMbAbort, State.ctxError?_mapConfig]
  split <;> rfl

/-- FRAME_END commutes with a change of the configuration (R140, R264). -/
theorem execFrameEnd_mapConfig : execFrameEnd (s.mapConfig c f) = (execFrameEnd s).mapConfig c f := by
  simp only [execFrameEnd, State.leastRunning?_mapConfig]
  split
  · next h => rw [if_pos (show s.fActive = false from h)]; rfl
  · next h =>
    rw [if_neg (show ¬ s.fActive = false from h)]
    split <;> rfl

/-- FRAME_START commutes with a change of the configuration registers: it reads those of its acceptance (R140, R160). -/
theorem execFrameStart_mapConfig : execFrameStart (s.mapConfig c id) = (execFrameStart s).mapConfig c id := by
  have hcfg : (s.mapConfig c id).cmdCfg = s.cmdCfg := rfl
  simp only [execFrameStart, hcfg]
  split
  · rfl
  split <;> rfl

/-- Every command commutes with a change of the configuration registers, and every command but FRAME_START with a change of
the remembered ones too (R140). -/
theorem exec_mapConfig (i : Instr) (hf : i = .frameStart → f = id) :
    exec i (s.mapConfig c f) = Outcome.mapConfig (exec i s) c f := by
  cases i with
  | nop => rfl
  | frameStart => obtain rfl := hf rfl; exact execFrameStart_mapConfig s c
  | mbDecode vb field => exact execMbDecodeWith_mapConfig s c f Config.idct vb field
  | mbAbort vb => exact execMbAbort_mapConfig s c f vb
  | frameEnd => exact execFrameEnd_mapConfig s c f

/-- A command in flight completes as it would have without a change of the configuration registers (R138, R140). -/
theorem completionStep_mapConfig : completionStep (s.mapConfig c id) = (completionStep s).mapConfig c id := by
  have hexecute : execute (s.mapConfig c id) = (execute s).mapConfig c id := by
    have hword : (s.mapConfig c id).cmdWord = s.cmdWord := rfl
    simp only [execute, hword]
    split
    · exact exec_mapConfig s c id _ fun _ => rfl
    · rfl
  rw [completionStep, hexecute]
  exact Outcome.mapConfig_onNext _ fun t => rfl

end Sys2Proof.Machine
end

section
/-! The obligations on host accesses (40_host_access.md). -/

namespace Sys2Proof.Machine

/-- Settles O12: no register is found at an unmapped offset, the listed offsets are read-only registers, and a write reads
the low bits of its word only. -/
theorem unmappedAndReservedAreIgnored : Obligations.UnmappedAndReservedAreIgnored := by
  unfold Obligations.UnmappedAndReservedAreIgnored
  intro s o d d' rest ho h4
  refine ⟨fun hfree => ⟨fun h => ?unmappedWrite, fun h => ?unmappedRead⟩, fun hro h => ?readOnly, fun hreg hbits h => ?low3,
    fun hreg hbits h => ?low2⟩
  case unmappedWrite =>
    rw [step_of_windowWrite ho h4 h, writeWindow, regAt?_eq_none_of_unmapped hfree]
    rfl
  case unmappedRead =>
    rw [step_of_windowRead ho h4 h, readWindow, regAt?_eq_none_of_unmapped hfree]
    rfl
  case readOnly =>
    obtain ⟨r, hr, hignored⟩ := (Option.any_eq_true ..).1 (regAt?_readOnly o hro)
    rw [step_of_windowWrite ho h4 h, writeWindow, hr]
    exact writeReg_of_isReadOnly hignored _ d
  case low3 =>
    have hlow : d.extractLsb' 0 3 = d'.extractLsb' 0 3 := extractLsb'_eq_of_mod_eq hbits
    simp only [List.mem_cons, List.not_mem_nil, or_false] at hreg
    obtain rfl | rfl := hreg
    · exact step_congr_of_write .intStatus h fun u => by simp only [writeReg, hlow]
    · exact step_congr_of_write .intEnable h fun u => by simp only [writeReg, hlow]
  case low2 =>
    have hlow : d.extractLsb' 0 2 = d'.extractLsb' 0 2 := extractLsb'_eq_of_mod_eq hbits
    simp only [List.mem_cons, List.not_mem_nil, or_false] at hreg
    obtain rfl | rfl := hreg
    · exact step_congr_of_write .ctrl h fun u => writeCtrl_congr u hlow
    · exact step_congr_of_write .frameMode h fun u => by simp only [writeReg, hlow]

/-- Settles O13: a configuration write changes the configuration registers only, and completions commute with that. -/
theorem configurationWriteSparesTheAcceptedCommand : Obligations.ConfigurationWriteSparesTheAcceptedCommand := by
  unfold Obligations.ConfigurationWriteSparesTheAcceptedCommand
  intro s d rest
  refine ⟨step_of_write .frameSize, step_of_write .frameMode, step_of_write .destBase, step_of_write .destStride,
    step_of_write .destSize, ?accepted, ?others⟩
  case accepted =>
    intro o t u ho hbusy h ht hu
    obtain ⟨c, hc⟩ := step_of_configWrite ho h
    obtain rfl := Host.Outcome.next.inj (hc.symm.trans ht)
    rw [step_of_datapath (s := { s with inputs := _ }) rfl hbusy] at hu
    calc step ((s.withInputs (.datapath :: rest)).mapConfig c id)
      _ = completionStep ((s.withInputs rest).mapConfig c id) := step_of_datapath rfl hbusy
      _ = (completionStep (s.withInputs rest)).mapConfig c id := completionStep_mapConfig ..
      _ = .next { u with cfg := c } := congrArg (Outcome.mapConfig · c id) hu
  case others =>
    intro c c' i hi
    exact exec_mapConfig s c (fun _ => c') i fun h => absurd h hi

/-- Settles O15: a datapath's turn keeps the state or completes, a host operation keeps the command in flight, accepts one or
resets, and a power-on resets. -/
theorem busySpansAcceptanceToCompletion : Obligations.BusySpansAcceptanceToCompletion := by
  unfold Obligations.BusySpansAcceptanceToCompletion
  intro s t h
  obtain hsame | ⟨d, rest, hin, hidle, hword⟩ | ⟨hended, hend⟩ := step_command_cases h
  · exact ⟨fun hs ht => by simp [hsame.busy, hs] at ht, fun hs ht => by simp [hsame.busy, hs] at ht,
      fun _ _ => ⟨hsame.cmdWord, hsame.cmdCfg⟩⟩
  · exact ⟨fun _ _ => ⟨d, rest, hin, hword⟩, fun hs => by simp [hidle] at hs, fun hs => by simp [hidle] at hs⟩
  · exact ⟨fun _ ht => by simp [hended] at ht, fun _ _ => hend, fun _ ht => by simp [hended] at ht⟩

/-- Settles O7: a write of CMD by the cases of BUSY. -/
theorem commandIsAcceptedOrDropped : Obligations.CommandIsAcceptedOrDropped := by
  unfold Obligations.CommandIsAcceptedOrDropped
  intro s d rest h
  have hstep : step s = .next (writeCmd (s.withInputs rest) d) := step_of_write .cmd h
  rw [hstep]
  refine ⟨fun hidle => ⟨(s.withInputs rest).accept d, ?_, rfl⟩, fun hbusy => ?_⟩
  · rw [writeCmd_of_idle (show (s.withInputs rest).busy = false from hidle)]
  · rw [writeCmd_of_busy (show (s.withInputs rest).busy = true from hbusy)]
    rfl

/-- Settles O8: a write of a COEF word by the cases of BUSY, read entry by entry. -/
theorem coefficientWriteStoresOrOverruns : Obligations.CoefficientWriteStoresOrOverruns := by
  unfold Obligations.CoefficientWriteStoresOrOverruns
  intro s j d rest hj h
  have hstep : step s = .next (writeCoef (s.withInputs rest) j d) := step_of_write (.coef ⟨j, hj⟩) h
  have hentry (n : Nat) := (s.withInputs rest).coefEntry_storeCoefWord d hj n
  rw [hstep]
  refine ⟨fun hidle => ⟨(s.withInputs rest).storeCoefWord j d, ?_, rfl, ?_, ?_, fun n hlo hhi => ?_⟩, fun hbusy => ?_⟩
  · rw [writeCoef_of_idle (show (s.withInputs rest).busy = false from hidle)]
  · rw [hentry, if_neg (by omega), if_pos rfl]
  · rw [hentry, if_pos rfl]
  · rw [hentry, if_neg hhi, if_neg hlo]
    rfl
  · rw [writeCoef_of_busy (show (s.withInputs rest).busy = true from hbusy)]
    rfl

/-- Settles O11: the window checks the width and the alignment before the access. -/
theorem badAccessIsABusError : Obligations.BadAccessIsABusError := by
  unfold Obligations.BadAccessIsABusError
  intro s width o d rest ho hbad
  exact ⟨fun h => (step_of_host h).trans (windowAccess_busError _ ho hbad),
    fun h => (step_of_host h).trans (windowAccess_busError _ ho hbad)⟩

end Sys2Proof.Machine
end

section
/-! SUPPORT. The remainder of the macroblock count in closed form (R170), the padding run of a padding macroblock (R173), and
the macroblock that covers a pixel of the frame (R174, R176). -/

namespace Sys2Proof.Machine

/-! ## The remainder -/

/-- Block 0 never takes a macroblock of the remainder (R170). -/
theorem mbExtra_zero (rem : Nat) : mbExtra rem 0 = 0 :=
  if_neg fun h => absurd (List.mem_of_mem_take h) (by decide)

/-- Block 1 takes the first macroblock of the remainder (R170). -/
theorem mbExtra_one : ∀ rem, mbExtra rem 1 = if 1 ≤ rem then 1 else 0
  | 0 => rfl
  | n + 1 => by simp [mbExtra]

/-- Block 3 takes the second macroblock of the remainder (R170). -/
theorem mbExtra_three : ∀ rem, mbExtra rem 3 = if 2 ≤ rem then 1 else 0
  | 0 | 1 => rfl
  | n + 2 => by simp [mbExtra]

/-- Block 2 takes the third macroblock of the remainder (R170). -/
theorem mbExtra_two : ∀ rem, mbExtra rem 2 = if 3 ≤ rem then 1 else 0
  | 0 | 1 | 2 => rfl
  | n + 3 => by simp [mbExtra]

/-- A video block's count is its even share and its extra macroblock (R170). -/
theorem blockCount_of_extra {w h v e : Nat} {sc : Scan} (he : mbExtra (mbTotal w h % sc.vbc) v = e) :
    blockCount w h sc v = mbTotal w h / sc.vbc + e :=
  congrArg _ he

/-! ## The padding runs -/

/-- A frame has at most as many video blocks as there are contexts (R170). -/
theorem Scan.vbc_le_four (sc : Scan) : sc.vbc ≤ 4 := by cases sc <;> decide

/-- The padding run of a video block ends where the next one starts (R173). -/
theorem arrangement_padRunEnd (w h : Nat) {sc : Scan} {v : Fin 4} (hv : v.val < sc.vbc) :
    (arrangement w h sc).p[v.val] + (blockCount w h sc v.val - (arrangement w h sc).normal) = padRunStart w h sc (v.val + 1) := by
  rw [arrangement_p w h sc v hv, padRunStart_succ]
  rfl

/-- A number below the running sum of `n` padding runs lies in one of them (R173). -/
theorem exists_padRun {w h : Nat} {sc : Scan} {n p : Nat} (hp : p < padRunStart w h sc n) :
    ∃ v < n, padRunStart w h sc v ≤ p ∧ p < padRunStart w h sc (v + 1) := by
  induction n with
  | zero => exact absurd hp (Nat.not_lt_zero p)
  | succ n ih =>
    by_cases hlast : padRunStart w h sc n ≤ p
    · exact ⟨n, Nat.lt_succ_self n, hlast, hp⟩
    · obtain ⟨v, hv, hrun⟩ := ih (Nat.not_le.1 hlast)
      exact ⟨v, Nat.lt_succ_of_lt hv, hrun⟩

/-- Every padding macroblock lies in the padding run of exactly one video block (R173, R175). -/
theorem existsUnique_padRun {w h : Nat} {sc : Scan} {p : Nat} (hp : p < padRunStart w h sc sc.vbc) :
    ∃! v : Fin 4, v.val < sc.vbc ∧ padRunStart w h sc v.val ≤ p ∧ p < padRunStart w h sc (v.val + 1) := by
  obtain ⟨v, hv, hstart, hend⟩ := exists_padRun hp
  refine ⟨⟨v, hv.trans_le sc.vbc_le_four⟩, ⟨hv, hstart, hend⟩, ?_⟩
  rintro u ⟨-, hstart', hend'⟩
  exact Fin.ext (Nat.le_antisymm (le_of_padRunStart_lt (hstart'.trans_lt hend)) (le_of_padRunStart_lt (hstart.trans_lt hend')))

/-! ## The macroblock of a pixel -/

/-- A pixel lies in the 16×16 cell of its row and column. -/
theorem std16_covers (x y : Nat) : (⟨.std16, 16 * (x / 16), 16 * (y / 16)⟩ : MbPlace).covers x y := by
  simp only [MbPlace.covers, MbKind.width, MbKind.height]
  omega

/-- A pixel above row PS is covered by a macroblock of the normal region (R172, R174). -/
theorem exists_normal_covers {w h : Nat} (hg : geometryOk w h = true) (sc : Scan) {x y : Nat} (hx : x < w)
    (hy : y / 16 < padStartRow h sc) :
    ∃ (v : Fin 4) (i : Nat), v.val < sc.vbc ∧ i < blockCount w h sc v.val ∧ (mbPos (arrangement w h sc) v i).covers x y := by
  obtain ⟨hcount, -⟩ := blockCount_facts hg sc
  have hcol : x / 16 < w / 16 := by simp [geometryOk] at hg; omega
  have hvbc : 0 < sc.vbc := by cases sc <;> decide
  have hblock : y / 16 % sc.vbc < sc.vbc := Nat.mod_lt _ hvbc
  have hrow : y / 16 / sc.vbc < padStartRow h sc / sc.vbc := Nat.div_lt_div_of_lt_of_dvd (Nat.dvd_mul_left ..) hy
  have hi : w / 16 * (y / 16 / sc.vbc) + x / 16 < normalCount w h sc := pixelOffset_lt hrow hcol
  refine ⟨⟨_, hblock.trans_le sc.vbc_le_four⟩, _, hblock, hi.trans_le (hcount _ hblock), ?_⟩
  obtain ⟨hdiv, hmod⟩ := (Nat.div_mod_unique (Nat.zero_lt_of_lt hcol)).2
    ⟨Nat.add_comm (x / 16) (w / 16 * (y / 16 / sc.vbc)), hcol⟩
  rw [mbPos_normal hi]
  simp only [arrangement, hdiv, hmod, Nat.mod_add_div]
  exact std16_covers x y

/-- The number of the padding macroblock of a pixel from row PS on, by the two parts of the padding region (R173). -/
theorem padNumberAt_cases {w h : Nat} (hg : geometryOk w h = true) (sc : Scan) {x y : Nat} (hx : x < w) (hy : y < h)
    (hpad : padStartRow h sc ≤ y / 16) :
    (padNumberAt w h sc x y < (h / 16 - padStartRow h sc) * (w / 16) ∧ padNumberAt w h sc x y % (w / 16) = x / 16
        ∧ padStartRow h sc + padNumberAt w h sc x y / (w / 16) = y / 16 ∧ y / 16 < h / 16)
      ∨ (padNumberAt w h sc x y = (h / 16 - padStartRow h sc) * (w / 16) + x / 32 ∧ x / 32 < stripCount w h ∧ y / 16 = h / 16) := by
  have hshape : w % 16 = 0 ∧ (h % 16 = 0 ∨ h % 16 = 8 ∧ w % 32 = 0) := by simp [geometryOk] at hg; omega
  have hcol : x / 16 < w / 16 := by omega
  by_cases hrow : y / 16 < h / 16
  · have hnum : padNumberAt w h sc x y = w / 16 * (y / 16 - padStartRow h sc) + x / 16 := by
      rw [padNumberAt, if_pos hrow, Nat.mul_comm]
    obtain ⟨hdiv, hmod⟩ := (Nat.div_mod_unique (Nat.zero_lt_of_lt hcol)).2 ⟨(Nat.add_comm _ _).trans hnum.symm, hcol⟩
    exact .inl ⟨hnum ▸ pixelOffset_lt (Nat.sub_lt_sub_right hpad hrow) hcol, hmod, by rw [hdiv, Nat.add_sub_cancel' hpad], hrow⟩
  · refine .inr ⟨by rw [padNumberAt, if_neg hrow], ?_, by omega⟩
    rw [stripCount, if_pos (by omega)]
    omega

/-- A pixel from row PS on is covered by the macroblock of its padding number (R173, R174). -/
theorem exists_padding_covers {w h : Nat} (hg : geometryOk w h = true) (sc : Scan) {x y : Nat} (hx : x < w) (hy : y < h)
    (hpad : padStartRow h sc ≤ y / 16) :
    ∃ (v : Fin 4) (i : Nat), v.val < sc.vbc ∧ i < blockCount w h sc v.val ∧ (mbPos (arrangement w h sc) v i).covers x y := by
  obtain ⟨-, -, -, hpadTotal, -, -⟩ := blockCount_facts hg sc
  have hnum := padNumberAt_cases hg sc hx hy hpad
  have hlt : padNumberAt w h sc x y < padRunStart w h sc sc.vbc := by omega
  obtain ⟨v, ⟨hv, hstart, hend⟩, -⟩ := existsUnique_padRun hlt
  rw [padRunStart_succ] at hend
  refine ⟨v, normalCount w h sc + (padNumberAt w h sc x y - padRunStart w h sc v.val), hv, by omega, ?_⟩
  generalize hi : normalCount w h sc + (padNumberAt w h sc x y - padRunStart w h sc v.val) = i
  have hnormal : ¬ i < (arrangement w h sc).normal := by simp only [arrangement]; omega
  have hp : (arrangement w h sc).p[v.val] + (i - (arrangement w h sc).normal) = padNumberAt w h sc x y := by
    rw [arrangement_p w h sc v hv]
    simp only [arrangement]
    omega
  obtain ⟨hfull, hcol, hrow, hin⟩ | ⟨hnum, -, hrow⟩ := hnum
  · rw [mbPos_pad hnormal hp hfull (by simp only [arrangement]; omega)]
    simp only [arrangement, hcol, hrow]
    exact std16_covers x y
  · rw [mbPos_strip hnormal hp (by simp only [arrangement]; omega)]
    simp only [arrangement, hnum, MbPlace.covers, MbKind.width, MbKind.height]
    simp [geometryOk] at hg
    omega

/-- Every pixel of the frame is covered by a macroblock (R176). -/
theorem exists_mbPos_covers {w h : Nat} (hg : geometryOk w h = true) (sc : Scan) {x y : Nat} (hx : x < w) (hy : y < h) :
    ∃ (v : Fin 4) (i : Nat), v.val < sc.vbc ∧ i < blockCount w h sc v.val ∧ (mbPos (arrangement w h sc) v i).covers x y := by
  obtain hrow | hrow := Nat.lt_or_ge (y / 16) (padStartRow h sc)
  · exact exists_normal_covers hg sc hx hrow
  · exact exists_padding_covers hg sc hx hy hrow

end Sys2Proof.Machine
end

section
/-! The obligations on the arrangement of the macroblocks (41_arrangement.md). -/

namespace Sys2Proof.Machine

/-- Settles O24: the counts as sums, the padding runs as intervals of their running sum, and the rectangles by region. -/
theorem countsPartitionThePaddingRegion : Obligations.CountsPartitionThePaddingRegion := by
  unfold Obligations.CountsPartitionThePaddingRegion
  intro w h scan hg g count
  obtain ⟨hnormal, hsum, htotal, hpadTotal, -, -⟩ := blockCount_facts hg scan
  refine ⟨hnormal, hsum, htotal, fun p hp => ?run, fun v hv => ?inside, fun v i hv hi => mbPos_inside hg scan hv hi⟩
  case run =>
    have hrun (v : Fin 4) : (v.val < scan.vbc ∧ g.p[v.val] ≤ p ∧ p < g.p[v.val] + (count v.val - g.normal))
        ↔ v.val < scan.vbc ∧ padRunStart w h scan v.val ≤ p ∧ p < padRunStart w h scan (v.val + 1) :=
      and_congr_right fun hv => by rw [arrangement_padRunEnd w h hv, arrangement_p w h scan v hv]
    exact (existsUnique_congr hrun).2 (existsUnique_padRun (hp.trans_eq hpadTotal.symm))
  case inside =>
    calc g.p[v.val] + (count v.val - g.normal)
      _ = padRunStart w h scan (v.val + 1) := arrangement_padRunEnd w h hv
      _ ≤ padRunStart w h scan scan.vbc := padRunStart_mono w h scan hv
      _ = g.padFull + stripCount w h := hpadTotal

/-- Settles O25: a pixel above row PS has its macroblock in the normal region, any other in the padding run of its padding
number; and no pixel has two. -/
theorem macroblocksTileTheFrame : Obligations.MacroblocksTileTheFrame := by
  unfold Obligations.MacroblocksTileTheFrame
  intro w h scan hg x y hx hy
  obtain ⟨v, i, hv, hi, hc⟩ := exists_mbPos_covers hg scan hx hy
  refine ⟨(v, i), ⟨hv, hi, hc⟩, ?_⟩
  rintro ⟨v', i'⟩ ⟨hv', hi', hc'⟩
  obtain ⟨rfl, rfl⟩ := mbPos_covers_unique hg scan hv' hi' hv hi hc' hc
  rfl

/-- Settles O22: the extra macroblock of each block by the remainder. -/
theorem remainderGoesToBlocksOneThreeTwo : Obligations.RemainderGoesToBlocksOneThreeTwo := by
  unfold Obligations.RemainderGoesToBlocksOneThreeTwo
  intro w h
  have hodd : (if 1 ≤ w * h / 256 % 2 then 1 else 0) = w * h / 256 % 2 := by split <;> omega
  exact ⟨blockCount_of_extra (mbExtra_zero _), blockCount_of_extra ((mbExtra_one _).trans hodd),
    blockCount_of_extra (mbExtra_zero _), blockCount_of_extra (mbExtra_one _), blockCount_of_extra (mbExtra_three _),
    blockCount_of_extra (mbExtra_two _), rfl, rfl, fun scan => ⟨rfl, rfl⟩⟩

end Sys2Proof.Machine
end

section
/-! SUPPORT. When two FIELD bits place a macroblock alike (R207), and what MB_DECODE leaves that does not depend on the FIELD
bit (R214). -/

namespace Sys2Proof.Machine

/-- A progressive frame and a strip macroblock have one regime for both FIELD bits (R207). -/
theorem regimeOf_field_irrelevant {kind : MbKind} {scan : Scan} (h : scan = .progressive ∨ kind = .strip)
    (field field' : Bool) : regimeOf kind scan field = regimeOf kind scan field' := by
  obtain rfl | rfl := h
  · cases kind <;> rfl
  · rfl

/-- MB_DECODE depends on the FIELD bit through its writes only (R214). -/
theorem execMbDecodeWith_congr_writes {s : State} {idct : Idct} {vb : Fin 4} {field field' : Bool}
    (h : s.mbWritesWith idct vb field = s.mbWritesWith idct vb field') :
    execMbDecodeWith idct vb field s = execMbDecodeWith idct vb field' s := by
  simp only [execMbDecodeWith, h]

/-- With one regime for both FIELD bits MB_DECODE ignores the bit (R207, R214). -/
theorem execMbDecodeWith_field_irrelevant {s : State} {vb : Fin 4}
    (h : s.frame.scan = .progressive ∨ (mbPos s.geom vb (s.context vb).mbIdx.toNat).kind = .strip) (idct : Idct)
    (field field' : Bool) : execMbDecodeWith idct vb field s = execMbDecodeWith idct vb field' s :=
  execMbDecodeWith_congr_writes (by simp only [State.mbWritesWith, regimeOf_field_irrelevant h field field'])

/-- Two MB_DECODEs on one context, whatever their FIELD bits, leave states that differ in memory and the draw counter only:
both record the one error of the checks, or both advance the context (R214). -/
theorem execMbDecodeWith_field_frame {idct : Idct} {vb : Fin 4} {field field' : Bool} {s t t' : State}
    (h : execMbDecodeWith idct vb field s = .next t) (h' : execMbDecodeWith idct vb field' s = .next t') :
    t' = { t with mem := t'.mem, draws := t'.draws } := by
  obtain ⟨e, he, rfl⟩ | ⟨hruns, -, -, n, rfl⟩ := execMbDecodeWith_cases h <;>
    obtain ⟨e', he', rfl⟩ | ⟨hruns', -, -, n', rfl⟩ := execMbDecodeWith_cases h'
  · obtain rfl : e = e' := Option.some.inj (he.symm.trans he')
    rfl
  · exact nomatch he.symm.trans (State.ctxError?_eq_none.2 hruns')
  · exact nomatch he'.symm.trans (State.ctxError?_eq_none.2 hruns)
  · rfl

end Sys2Proof.Machine
end

section
/-! SUPPORT. The samples that the pixels of a macroblock show (R211, R240), the bytes of a pixel pair, and the block views of
the YUV422 writer (R212, R213). -/

namespace Sys2Proof.Machine

/-! ## One sample for each position -/

/-- Every pixel of the macroblock shows exactly one luma sample (R211). -/
theorem existsUnique_lumaXY {reg : Regime} {dx dy : Nat} (hx : dx < reg.width) (hy : dy < reg.height) :
    ∃! m : Nat × Nat × Nat, m.1 < 4 ∧ m.2.1 < 8 ∧ m.2.2 < 8 ∧ lumaXY reg m.1 m.2.1 m.2.2 = (dx, dy) := by
  obtain ⟨k, r, c, hk, hr, hc, hxy⟩ := lumaXY_surj hx hy
  refine ⟨(k, r, c), ⟨hk, hr, hc, hxy⟩, ?_⟩
  rintro ⟨k', r', c'⟩ ⟨hk', hr', hc', hxy'⟩
  obtain ⟨rfl, rfl, rfl⟩ := lumaXY_inj hk' hr' hc' hk hr hc (hxy'.trans hxy.symm)
  rfl

/-- Every chroma column and line of the macroblock shows exactly one sample of each component (R211). -/
theorem existsUnique_chromaXY {reg : Regime} {dxc dy : Nat} (hx : 2 * dxc < reg.width) (hy : dy < reg.height) :
    ∃! m : Nat × Nat × Nat, m.1 < 2 ∧ m.2.1 < 8 ∧ m.2.2 < 8 ∧ chromaXY reg m.1 m.2.1 m.2.2 = (dxc, dy) := by
  obtain ⟨j, r, c, hj, hr, hc, hxy⟩ := chromaXY_surj hx hy
  refine ⟨(j, r, c), ⟨hj, hr, hc, hxy⟩, ?_⟩
  rintro ⟨j', r', c'⟩ ⟨hj', hr', hc', hxy'⟩
  obtain ⟨rfl, rfl, rfl⟩ := chromaXY_inj hj' hr' hc' hj hr hc (hxy'.trans hxy.symm)
  rfl

section
variable {reg : Regime} {r c : Nat} (smp : Samples)

/-- `Ymb` holds each luma sample at its pixel (R240). -/
theorem ymb_lumaXY {k : Nat} (hk : k < 4) (hr : r < 8) (hc : c < 8) :
    ymb reg smp (lumaXY reg k r c).1 (lumaXY reg k r c).2 = smp k (8 * r + c) := by
  rw [ymb, lumaAt_lumaXY hk hr hc]

/-- `Cbmb` holds each Cb sample at its chroma column and line (R240). -/
theorem cbmb_chromaXY {j : Nat} (hj : j < 2) (hr : r < 8) (hc : c < 8) :
    cbmb reg smp (chromaXY reg j r c).1 (chromaXY reg j r c).2 = smp (6 + j) (8 * r + c) := by
  rw [cbmb, chromaAt_chromaXY hj hr hc]

/-- `Crmb` holds each Cr sample at its chroma column and line (R240). -/
theorem crmb_chromaXY {j : Nat} (hj : j < 2) (hr : r < 8) (hc : c < 8) :
    crmb reg smp (chromaXY reg j r c).1 (chromaXY reg j r c).2 = smp (4 + j) (8 * r + c) := by
  rw [crmb, chromaAt_chromaXY hj hr hc]

end

/-! ## The bytes of a pixel pair -/

section
variable (f : Latched) {reg : Regime} (x0 y0 : Nat) (smp : Samples)

/-- A pixel's luma byte is among the luma writes (R212). -/
theorem luma_mem_lumaWrites {dx dy : Nat} (hx : dx < reg.width) (hy : dy < reg.height) :
    (lineAddr f (y0 + dy) + 2 * (x0 + dx), ymb reg smp dx dy) ∈ lumaWrites f reg x0 y0 smp := by
  obtain ⟨k, r, c, hk, hr, hc, hxy⟩ := lumaXY_surj hx hy
  have hsmp := ymb_lumaXY (reg := reg) smp hk hr hc
  rw [hxy] at hsmp
  exact mem_lumaWrites.2 ⟨k, r, c, hk, hr, hc, by rw [hxy, hsmp]⟩

/-- A pixel pair's Cb and Cr bytes are among the chroma writes (R212). -/
theorem chroma_mem_chromaWrites {dxc dy : Nat} (hx : 2 * dxc < reg.width) (hy : dy < reg.height) :
    (lineAddr f (y0 + dy) + 4 * (x0 / 2 + dxc) + 1, cbmb reg smp dxc dy) ∈ chromaWrites f reg x0 y0 smp
      ∧ (lineAddr f (y0 + dy) + 4 * (x0 / 2 + dxc) + 3, crmb reg smp dxc dy) ∈ chromaWrites f reg x0 y0 smp := by
  obtain ⟨j, r, c, hj, hr, hc, hxy⟩ := chromaXY_surj hx hy
  have hcb := cbmb_chromaXY (reg := reg) smp hj hr hc
  have hcr := crmb_chromaXY (reg := reg) smp hj hr hc
  rw [hxy] at hcb hcr
  exact ⟨mem_chromaWrites.2 ⟨j, r, c, hj, hr, hc, .inl (by rw [hxy, hcb])⟩,
    mem_chromaWrites.2 ⟨j, r, c, hj, hr, hc, .inr (by rw [hxy, hcr])⟩⟩

variable (reg)

/-- A macroblock has 512 bytes in YUV422: one for each of 256 luma samples and two for each of 128 chroma positions (R212). -/
theorem length_yuvWrites : (yuvWrites f reg x0 y0 smp).length = 512 := by
  have hluma : (lumaWrites f reg x0 y0 smp).length = 256 := by simp [lumaWrites, List.length_flatMap]
  have hchroma : (chromaWrites f reg x0 y0 smp).length = 256 := by simp [chromaWrites, List.length_flatMap]
  rw [yuvWrites, List.length_append, hluma, hchroma]

end

/-! ## The block views -/

/-- Where its view puts sample `(r, c)` of DCT block `k`: `A_k + r·RS + c·bpp_k` (R213). -/
def blockAddr (f : Latched) (reg : Regime) (x0 y0 k r c : Nat) : Nat :=
  (blockView f reg x0 y0 k).1 + r * (blockView f reg x0 y0 k).2.2 + c * (blockView f reg x0 y0 k).2.1

section
variable (f : Latched) (reg : Regime) {x0 : Nat} (y0 r c : Nat)

/-- A luma block's view puts each sample at its pixel's luma byte (R212, R213). -/
theorem blockAddr_luma {k : Nat} (hk : k < 4) :
    blockAddr f reg x0 y0 k r c = lineAddr f (y0 + (lumaXY reg k r c).2) + 2 * (x0 + (lumaXY reg k r c).1) := by
  match k, hk with
  | 0, _ | 1, _ | 2, _ | 3, _ => cases reg <;> simp [blockAddr, blockView, lumaXY, lineAddr] <;> ring

/-- A Cb block's view puts each sample at byte 1 of its pixel pair (R212, R213). -/
theorem blockAddr_cb {j : Nat} (hj : j < 2) (hx0 : x0 % 2 = 0) :
    blockAddr f reg x0 y0 (6 + j) r c
      = lineAddr f (y0 + (chromaXY reg j r c).2) + 4 * (x0 / 2 + (chromaXY reg j r c).1) + 1 := by
  obtain ⟨x, rfl⟩ := Nat.dvd_of_mod_eq_zero hx0
  match j, hj with
  | 0, _ | 1, _ => cases reg <;> simp [blockAddr, blockView, chromaXY, lineAddr] <;> ring

/-- A Cr block's view lies two bytes after that of the Cb block it pairs with (R213). -/
theorem blockAddr_cr_eq_cb_add_two {j : Nat} (hj : j < 2) :
    blockAddr f reg x0 y0 (4 + j) r c = blockAddr f reg x0 y0 (6 + j) r c + 2 := by
  match j, hj with
  | 0, _ | 1, _ => simp only [blockAddr, blockView]; ring

/-- A Cr block's view puts each sample at byte 3 of its pixel pair (R212, R213). -/
theorem blockAddr_cr {j : Nat} (hj : j < 2) (hx0 : x0 % 2 = 0) :
    blockAddr f reg x0 y0 (4 + j) r c
      = lineAddr f (y0 + (chromaXY reg j r c).2) + 4 * (x0 / 2 + (chromaXY reg j r c).1) + 3 := by
  rw [blockAddr_cr_eq_cb_add_two f reg y0 r c hj, blockAddr_cb f reg y0 r c hj hx0]

end

/-- A DCT block is a luma, a Cr or a Cb block (R13, R200). -/
theorem block_cases {k : Nat} (hk : k < 8) : k < 4 ∨ (∃ j < 2, k = 4 + j) ∨ ∃ j < 2, k = 6 + j := by
  obtain h | h | h : k < 4 ∨ 4 ≤ k ∧ k < 6 ∨ 6 ≤ k := by omega
  · exact .inl h
  · exact .inr (.inl ⟨k - 4, by omega, by omega⟩)
  · exact .inr (.inr ⟨k - 6, by omega, by omega⟩)

/-- The YUV422 writes are the samples of the eight blocks, each where its view puts it (R213). -/
theorem mem_yuvWrites_iff_blockAddr {f : Latched} {reg : Regime} {x0 y0 : Nat} {smp : Samples} (hx0 : x0 % 2 = 0)
    {w : ByteAt} :
    w ∈ yuvWrites f reg x0 y0 smp
      ↔ ∃ k r c, k < 8 ∧ r < 8 ∧ c < 8 ∧ w = (blockAddr f reg x0 y0 k r c, smp k (8 * r + c)) := by
  rw [yuvWrites, List.mem_append, mem_lumaWrites, mem_chromaWrites]
  constructor
  · rintro (⟨k, r, c, hk, hr, hc, rfl⟩ | ⟨j, r, c, hj, hr, hc, rfl | rfl⟩)
    · exact ⟨k, r, c, by omega, hr, hc, by rw [blockAddr_luma f reg y0 r c hk]⟩
    · exact ⟨6 + j, r, c, by omega, hr, hc, by rw [blockAddr_cb f reg y0 r c hj hx0]⟩
    · exact ⟨4 + j, r, c, by omega, hr, hc, by rw [blockAddr_cr f reg y0 r c hj hx0]⟩
  · rintro ⟨k, r, c, hk, hr, hc, rfl⟩
    obtain hk | ⟨j, hj, rfl⟩ | ⟨j, hj, rfl⟩ := block_cases hk
    · exact .inl ⟨k, r, c, hk, hr, hc, by rw [blockAddr_luma f reg y0 r c hk]⟩
    · exact .inr ⟨j, r, c, hj, hr, hc, .inr (by rw [blockAddr_cr f reg y0 r c hj hx0])⟩
    · exact .inr ⟨j, r, c, hj, hr, hc, .inl (by rw [blockAddr_cb f reg y0 r c hj hx0])⟩

end Sys2Proof.Machine
end

section
/-! The obligations on MB_DECODE's regimes and placement (42_mb_decode.md). -/

namespace Sys2Proof.Machine

/-- Settles O33: both commands record the same error or advance the same context, whatever bytes they write. -/
theorem fieldBitChangesOnlyDestinationBytes : Obligations.FieldBitChangesOnlyDestinationBytes := by
  unfold Obligations.FieldBitChangesOnlyDestinationBytes
  intro s t t' vb h h'
  exact execMbDecodeWith_field_frame h h'

/-- Settles O34: the maps are one to one and onto, and the arrays are read through their inverses. -/
theorem samplesMapOneToOneOntoTheMacroblock : Obligations.SamplesMapOneToOneOntoTheMacroblock := by
  unfold Obligations.SamplesMapOneToOneOntoTheMacroblock
  intro reg smp
  refine ⟨fun _ _ => existsUnique_lumaXY, fun k r c hk hr hc => ?luma, fun _ _ => existsUnique_chromaXY,
    fun j r c hj hr hc => ?chroma⟩
  case luma =>
    obtain ⟨hx, hy⟩ := lumaXY_lt (reg := reg) hk hr hc
    exact ⟨hx, hy, ymb_lumaXY smp hk hr hc⟩
  case chroma =>
    obtain ⟨hx, hy⟩ := chromaXY_lt (reg := reg) hj hr hc
    exact ⟨hx, hy, crmb_chromaXY smp hj hr hc, cbmb_chromaXY smp hj hr hc⟩

/-- Settles O36: membership block by block, and the bytes of a pixel pair from the samples its two pixels show. -/
theorem yuvWritesAreTheBlockViews : Obligations.YuvWritesAreTheBlockViews := by
  unfold Obligations.YuvWritesAreTheBlockViews
  intro f reg x0 y0 smp hx0
  refine ⟨fun w => mem_yuvWrites_iff_blockAddr hx0, length_yuvWrites f reg x0 y0 smp, fun m dy hm hy => ?_⟩
  have hm' : 2 * m + 1 < reg.width := by have := reg.width_even; omega
  obtain ⟨hcb, hcr⟩ := chroma_mem_chromaWrites f x0 y0 smp hm hy
  have hy0 := luma_mem_lumaWrites f x0 y0 smp hm hy
  have hy1 := luma_mem_lumaWrites f x0 y0 smp hm' hy
  have haddr0 : lineAddr f (y0 + dy) + 2 * (x0 + 2 * m) = lineAddr f (y0 + dy) + 4 * (x0 / 2 + m) := by omega
  have haddr1 : lineAddr f (y0 + dy) + 2 * (x0 + (2 * m + 1)) = lineAddr f (y0 + dy) + 4 * (x0 / 2 + m) + 2 := by omega
  rw [haddr0] at hy0
  rw [haddr1] at hy1
  exact ⟨List.mem_append_left _ hy0, List.mem_append_right _ hcb, List.mem_append_left _ hy1, List.mem_append_right _ hcr⟩

/-- Settles O32: the regimes case by case, and MB_DECODE depends on FIELD through the regime only. -/
theorem fieldBitMattersOnlyOnInterlacedFullMacroblocks : Obligations.FieldBitMattersOnlyOnInterlacedFullMacroblocks := by
  unfold Obligations.FieldBitMattersOnlyOnInterlacedFullMacroblocks
  refine ⟨fun kind scan field => ⟨?strip, ?field, ?std⟩, fun s vb h => execMbDecodeWith_field_irrelevant h _ true false⟩
  case strip => rintro rfl; rfl
  case field => rintro rfl rfl rfl; rfl
  case std =>
    rintro rfl (rfl | rfl)
    · rfl
    · cases scan <;> rfl

/-- Settles O35: each entry is a row of a regime's tables of block offsets. -/
theorem regimePlacementTables : Obligations.RegimePlacementTables := by
  unfold Obligations.RegimePlacementTables
  intro r c j
  simp only [lumaXY, chromaXY, List.getD_cons_zero, List.getD_cons_succ, Nat.zero_add, and_self]

end Sys2Proof.Machine
end

section
/-! The colour function's components as numbers: the clip, its bytes, and the un-clipped values' order (R242, R243). -/

namespace Sys2Proof.Machine

/-! ## The clip -/

theorem clip_mono : Monotone clip := fun _ _ h => min_le_min_right 255 (max_le_max_right 0 h)

theorem clip_of_nonpos {v : Int} (h : v ≤ 0) : clip v = 0 := by rw [clip, max_eq_right h]; rfl

theorem clip_of_ge {v : Int} (h : 255 ≤ v) : clip v = 255 := by
  rw [clip, max_eq_left (by omega), min_eq_right h]

/-- A clipped value fits a byte, so the component's byte is the value (R243). -/
theorem toNat_ofInt_clip (v : Int) : ((BitVec.ofInt 8 (clip v)).toNat : Int) = clip v := by
  rw [BitVec.toNat_ofInt, clip]
  omega

theorem toNat_ofInt_clip_le {v w : Int} (h : v ≤ w) :
    (BitVec.ofInt 8 (clip v)).toNat ≤ (BitVec.ofInt 8 (clip w)).toNat :=
  Int.ofNat_le.mp (by simpa only [toNat_ofInt_clip] using clip_mono h)

theorem toNat_byte_range (x : Byte) : (0 : Int) ≤ x.toNat ∧ (x.toNat : Int) ≤ 255 := by omega

/-! ## The order of the un-clipped values -/

section
variable (bias : Int) {y y' cb cb' cr cr' : Int}

theorem rawB_le (hy : y ≤ y') (hcb : cb ≤ cb') : rawB bias y cb ≤ rawB bias y' cb' :=
  Int.ediv_le_ediv (by decide) (by omega)

theorem rawG_le (hy : y ≤ y') (hcb : cb' ≤ cb) (hcr : cr' ≤ cr) : rawG bias y cb cr ≤ rawG bias y' cb' cr' :=
  Int.ediv_le_ediv (by decide) (by omega)

theorem rawR_le (hy : y ≤ y') (hcr : cr ≤ cr') : rawR bias y cr ≤ rawR bias y' cr' :=
  Int.ediv_le_ediv (by decide) (by omega)

end

/-! ## The grey axis -/

/-- With both chroma samples 128 the three components are one byte, the clipped and scaled luma (R247 (c)). -/
theorem convert_grey (y : Byte) :
    ∃ c : Byte, convert y 128 128 = ⟨c, c, c⟩ ∧ (c.toNat : Int) = clip (1192 * ((y.toNat : Int) - 16) / 1024) :=
  ⟨BitVec.ofInt 8 (clip (1192 * ((y.toNat : Int) - 16) / 1024)),
    by simp [convert, convertWith, rawB, rawG, rawR, Config.rgbBias], toNat_ofInt_clip _⟩

end Sys2Proof.Machine
end

section
/-! The obligations on the colour function (43_xrgb.md). -/

namespace Sys2Proof.Machine

/-- Settles O43: each component is its clipped value, the floor shift is the division by 1024, and the un-clipped values are
monotone, so that the extreme samples bound them. -/
theorem convertIsTheClampedMatrix : Obligations.ConvertIsTheClampedMatrix := by
  unfold Obligations.ConvertIsTheClampedMatrix
  refine ⟨fun bias y cb cr => ?matrix, fun y cb cr => ?ranges, ⟨0, 0, by decide⟩, ⟨255, 255, by decide⟩,
    ⟨0, 255, 255, by decide⟩, ⟨255, 0, 0, by decide⟩, ⟨0, 0, by decide⟩, ⟨255, 255, by decide⟩⟩
  case matrix =>
    simp only [Int.shiftRight_eq_div_pow]
    exact ⟨toNat_ofInt_clip _, toNat_ofInt_clip _, toNat_ofInt_clip _⟩
  case ranges =>
    obtain ⟨hy0, hy⟩ := toNat_byte_range y
    obtain ⟨hcb0, hcb⟩ := toNat_byte_range cb
    obtain ⟨hcr0, hcr⟩ := toNat_byte_range cr
    exact ⟨rfl, rawB_le 0 hy0 hcb0, rawB_le 0 hy hcb, rawG_le 0 hy0 hcb hcr, rawG_le 0 hy hcb0 hcr0, rawR_le 0 hy0 hcr0,
      rawR_le 0 hy hcr⟩

/-- Settles O44: the grey axis from its one byte, and each component from the order of its un-clipped value. -/
theorem convertIsMonotone : Obligations.ConvertIsMonotone := by
  unfold Obligations.ConvertIsMonotone
  refine ⟨by decide, by decide, fun y => ?grey, fun y y' cb cr h => ?luma, fun y cb cb' cr h => ?cb,
    fun y cb cr cr' h => ?cr⟩
  case grey =>
    obtain ⟨c, hgrey, hc⟩ := convert_grey y
    rw [hgrey]
    refine ⟨rfl, rfl, by rwa [Int.shiftRight_eq_div_pow], fun h => ?black, fun h => ?white⟩
    case black =>
      rw [clip_of_nonpos (by omega)] at hc
      exact BitVec.eq_of_toNat_eq (Int.ofNat_inj.mp hc)
    case white =>
      rw [clip_of_ge (by omega)] at hc
      exact BitVec.eq_of_toNat_eq (Int.ofNat_inj.mp hc)
  case luma =>
    have hy := Int.ofNat_le.mpr h
    exact ⟨toNat_ofInt_clip_le (rawB_le _ hy le_rfl), toNat_ofInt_clip_le (rawG_le _ hy le_rfl le_rfl),
      toNat_ofInt_clip_le (rawR_le _ hy le_rfl)⟩
  case cb =>
    have hcb := Int.ofNat_le.mpr h
    exact ⟨toNat_ofInt_clip_le (rawB_le _ le_rfl hcb), toNat_ofInt_clip_le (rawG_le _ le_rfl hcb le_rfl), rfl⟩
  case cr =>
    have hcr := Int.ofNat_le.mpr h
    exact ⟨toNat_ofInt_clip_le (rawR_le _ le_rfl hcr), toNat_ofInt_clip_le (rawG_le _ le_rfl le_rfl hcr), rfl⟩

end Sys2Proof.Machine
end

section
/-! SUPPORT. How a command that the block is issued completes (R134, R138, R139). -/

namespace Sys2Proof.Machine

/-- Every command's word decodes to it (R102, R106). -/
theorem decode_encode (i : Instr) : decode (encode i) = .ok i := by
  cases i with
  | nop => exact Laws.EncodesInTable.nop.2.2.1
  | frameStart => exact Laws.EncodesInTable.frameStart.2.2.1
  | mbDecode vb field => exact (Laws.EncodesInTable.mbDecode vb field).2.2.1
  | mbAbort vb => exact (Laws.EncodesInTable.mbAbort vb).2.2.1
  | frameEnd => exact Laws.EncodesInTable.frameEnd.2.2.1

/-- An accepted command executes and completes (R138, R139). -/
theorem completionStep_of_command {s : State} {i : Instr} (h : decode s.cmdWord = .ok i) :
    completionStep s = Outcome.onNext (exec i s) fun t => .next t.complete := by
  simp only [completionStep, execute, h]

/-- The state with the coefficient RAM loaded (R46, R136). -/
def State.loadCoef (s : State) (k : Vector CoefEntry 512) : State := { s with coef := k }

/-- The state in which a command is issued with its coefficients: they are loaded and its word is accepted (R134, R136). -/
def State.issued (s : State) (i : Instr) (k : Vector CoefEntry 512) : State := (s.loadCoef k).accept (encode i)

/-- Issuing a command executes it and completes (R134, R138). -/
theorem State.issue_eq (s : State) (i : Instr) (k : Vector CoefEntry 512) :
    s.issue i k = Outcome.onNext (exec i (s.issued i k)) fun t => .next t.complete :=
  completionStep_of_command (s := s.issued i k) (decode_encode i)

end Sys2Proof.Machine
end

section
/-! SUPPORT. Macroblock commands when the host races for no byte: how one that passes its checks or fails them ends (R201, R202,
R262, R263), and that a latched frame stays sound (R31, R165). -/

namespace Sys2Proof.Machine

/-! ## How a macroblock command ends -/

/-- A macroblock command whose checks fail records an error (R202, R263). -/
theorem exec_of_not_runs {s : State} {i : Instr} {vb : Fin 4} (hi : contextOf i = some vb) (h : ¬ s.Runs vb) :
    ∃ e : CtxError, exec i s = .next (s.recordError e.code e.vb e.mb) := by
  obtain ⟨e, he⟩ := Option.ne_none_iff_exists'.1 (mt State.ctxError?_eq_none.1 h)
  refine ⟨e, ?_⟩
  cases i with
  | mbDecode v field => cases hi; simp only [exec, execMbDecode, execMbDecodeWith, he, State.raise]
  | mbAbort v => cases hi; simp only [exec, execMbAbort, he, State.raise]
  | nop | frameStart | frameEnd => cases hi

/-- An MB_DECODE that passes its checks, with every coefficient written and every byte backed, writes its bytes and advances
its context (R201). -/
theorem execMbDecodeWith_of_runs {s : State} {idct : Idct} {vb : Fin 4} {field : Bool} (hraced : s.raced = [])
    (hr : s.Runs vb) (hc : s.CoefWritten) (hb : s.Backed idct vb field) :
    execMbDecodeWith idct vb field s = .next
      (({ s with mem := Memory.writeAll s.mem (s.mbWritesWith idct vb field) } : State).setContext vb
        (s.context vb).advance).autoClearCoef := by
  have hput : s.putCommand (s.mbWritesWith idct vb field)
      = .next { s with mem := Memory.writeAll s.mem (s.mbWritesWith idct vb field) } := by
    rw [State.putCommand, State.landing_of_no_race hraced, State.putBytes_of_memory _ hb]
    simp only [hraced, List.isEmpty_nil, if_true, Nat.add_zero]
  simp only [execMbDecodeWith, State.ctxError?_eq_none.2 hr, State.coefReady_iff.2 hc, Bool.true_eq_false, if_false, hput,
    Outcome.onNext_next]
  rfl

/-- An MB_DECODE that passes its checks and goes on had every coefficient written and every byte backed (R54, R72). -/
theorem execMbDecodeWith_next_of_runs {s t : State} {idct : Idct} {vb : Fin 4} {field : Bool} (hraced : s.raced = [])
    (hr : s.Runs vb) (h : execMbDecodeWith idct vb field s = .next t) : s.CoefWritten ∧ s.Backed idct vb field := by
  obtain ⟨e, he, -⟩ | ⟨-, hc, hb, -⟩ := execMbDecodeWith_cases h
  · exact nomatch he.symm.trans (State.ctxError?_eq_none.2 hr)
  · rw [State.landing_of_no_race hraced] at hb
    exact ⟨hc, hb⟩

/-- An MB_ABORT that passes its checks makes its context FAILED and signals BITSTREAM (R262). -/
theorem execMbAbort_of_runs {s : State} {vb : Fin 4} (hr : s.Runs vb) :
    execMbAbort vb s = .next ((s.setContext vb { s.context vb with state := .failed }).recordError .bitstream
      (BitVec.ofNat 2 vb.val) (s.context vb).mbIdx).autoClearCoef := by
  simp only [execMbAbort, State.ctxError?_eq_none.2 hr]

/-! ## The frame stays sound -/

/-- A video block of a frame with 16-bit dimensions owns fewer than 2^32 macroblocks, so that CTX_MBIDX never wraps (R38, R39,
R170). -/
theorem blockCount_lt {w h : Nat} (hw : w < 2 ^ 16) (hh : h < 2 ^ 16) (sc : Scan) (v : Nat) :
    blockCount w h sc v < 2 ^ 32 := by
  have htotal : w * h < 2 ^ 16 * 2 ^ 16 := Nat.mul_lt_mul'' hw hh
  have hshare : mbTotal w h / sc.vbc ≤ mbTotal w h := Nat.div_le_self ..
  have hextra : mbExtra (mbTotal w h % sc.vbc) v ≤ 1 := by unfold mbExtra; split <;> omega
  unfold blockCount
  unfold mbTotal at *
  omega

/-- A context of the frame that has a macroblock left is sound when it has placed one more (R31, R38, R201). -/
theorem Context.Sound.advance {c : Context} {w h : Nat} {sc : Scan} {v : Fin 4} (hc : c.Sound w h sc v) (hv : v.val < sc.vbc)
    (hleft : c.mbIdx.toNat < blockCount w h sc v.val) (hcount : blockCount w h sc v.val < 2 ^ 32) :
    c.advance.Sound w h sc v := by
  rw [Context.Sound, if_pos hv] at hc ⊢
  obtain ⟨hmbs, hpadX, hpadY, -, -, hdone, hidle⟩ := hc
  have hidx : (c.mbIdx + 1).toNat = c.mbIdx.toNat + 1 :=
    BitVec.toNat_add_of_lt (show c.mbIdx.toNat + 1 < 2 ^ 32 by omega)
  have hmbs' : c.mbCount.toNat = blockCount w h sc v.val := by
    simpa [hmbs, initContext, hv] using hcount
  have hlast : c.mbIdx + 1 = c.mbCount ↔ c.mbIdx.toNat + 1 = blockCount w h sc v.val := by
    rw [← BitVec.toNat_inj, hidx, hmbs']
  refine ⟨hmbs, hpadX, hpadY, ?_⟩
  simp only [Context.advance, hidx, hlast]
  split
  · next hl => exact ⟨by omega, by simp, fun _ => hl, by simp⟩
  · next hl => exact ⟨by omega, fun _ => by omega, fun hd => absurd (hdone hd) (by omega), hidle⟩

/-- A context of the frame that has a macroblock left is sound when it FAILED (R31, R262). -/
theorem Context.Sound.fail {c : Context} {w h : Nat} {sc : Scan} {v : Fin 4} (hc : c.Sound w h sc v) (hv : v.val < sc.vbc)
    (hleft : c.mbIdx.toNat < blockCount w h sc v.val) : Context.Sound { c with state := .failed } w h sc v := by
  rw [Context.Sound, if_pos hv] at hc ⊢
  obtain ⟨hmbs, hpadX, hpadY, hle, -, -, -⟩ := hc
  exact ⟨hmbs, hpadX, hpadY, hle, fun _ => hleft, nofun, nofun⟩

/-- A latched frame with another sound context is sound. -/
theorem State.HasFrame.setContext {s : State} {v : Fin 4} {c : Context} (hf : s.HasFrame)
    (hc : c.Sound s.frame.w.toNat s.frame.h.toNat s.frame.scan v) : (s.setContext v c).HasFrame := by
  obtain ⟨hg, hline, hspace, hgeom, hctx⟩ := hf
  refine ⟨hg, hline, hspace, hgeom, fun w => ?_⟩
  by_cases hw : v = w
  · subst hw
    rwa [State.context_setContext_same]
  · rw [State.context_setContext_other hw]
    exact hctx w

/-! ## Writes of two commands -/

/-- What an address reads after a list of writes depends on what it read before, and on no other address. -/
theorem Memory.read_writeAll_congr {m m' : List Host.Cell} {a : Nat} (h : Memory.read m a = Memory.read m' a)
    (ws : List ByteAt) : Memory.read (Memory.writeAll m ws) a = Memory.read (Memory.writeAll m' ws) a := by
  induction ws generalizing m m' with
  | nil => exact h
  | cons w ws ih => exact ih (by rw [Memory.read_write, Memory.read_write, h])

/-- Two lists of writes to different addresses commute (R90). -/
theorem Memory.writeAll_comm {m : List Host.Cell} {ws ws' : List ByteAt} (hm : Memory.wf m = true)
    (hws : ∀ w ∈ ws, w.1 < Config.addrSpace) (hws' : ∀ w ∈ ws', w.1 < Config.addrSpace)
    (hne : ∀ w ∈ ws, ∀ w' ∈ ws', w.1 ≠ w'.1) :
    Memory.writeAll (Memory.writeAll m ws) ws' = Memory.writeAll (Memory.writeAll m ws') ws := by
  refine Memory.ext (wf_writeAll (wf_writeAll hm hws) hws') (wf_writeAll (wf_writeAll hm hws') hws) fun a => ?_
  by_cases ha : ∃ w ∈ ws, w.1 = a
  · obtain ⟨w, hw, rfl⟩ := ha
    have hother : ∀ w' ∈ ws', w'.1 ≠ w.1 := fun w' hw' => (hne w hw w' hw').symm
    rw [Memory.read_writeAll_other _ hother]
    exact Memory.read_writeAll_congr (Memory.read_writeAll_other _ hother).symm ws
  · have hother : ∀ w ∈ ws, w.1 ≠ a := fun w hw e => ha ⟨w, hw, e⟩
    rw [Memory.read_writeAll_other (Memory.writeAll m ws') hother]
    exact Memory.read_writeAll_congr (Memory.read_writeAll_other _ hother) ws'

end Sys2Proof.Machine
end

section
/-! SUPPORT. Macroblock commands of different contexts commute (R266): up to the error record, the flags and the coefficient RAM,
a command changes its own context and bytes only, and how it does so depends on its own context and the latched frame only. -/

namespace Sys2Proof.Machine

/-! ## What macroblock commands serve -/

/-- The state without what every macroblock command may change beside its context and destination memory: the error record, the
flags, the command registers and the coefficient RAM. -/
def State.served (s : State) : State :=
  { s with
    intStatus := 0, errCode := .none, errVb := 0, errMb := 0, busy := false, cmdWord := 0, cmdCfg := .zero
    coef := Vector.replicate 512 .unwritten }

/-- The state with a list of bytes written and a context set. -/
def State.put (s : State) (v : Fin 4) (ws : List ByteAt) (c : Context) : State :=
  ({ s with mem := Memory.writeAll s.mem ws } : State).setContext v c

/-- A completion without a race leaves the served state alone (R138). -/
theorem State.served_complete {s : State} (hraced : s.raced = []) : s.complete.served = s.served := by
  simp only [State.served, State.complete, hraced]

/-- Putting a context back with no bytes changes nothing. -/
theorem State.put_self (s : State) {v : Fin 4} : s.put v [] (s.context v) = s := by
  have hctx : s.ctx.set v.val (s.context v) = s.ctx := Vector.set_getElem_self _
  simp only [State.put, State.setContext, Memory.writeAll_nil, hctx]

/-- Putting bytes and a context commutes with forgetting what else a command changes. -/
theorem State.served_put (s : State) (v : Fin 4) (ws : List ByteAt) (c : Context) :
    (s.put v ws c).served = s.served.put v ws c := rfl

/-- Putting one context leaves the others. -/
theorem State.context_put_other {s : State} {v w : Fin 4} {ws : List ByteAt} {c : Context} (h : v ≠ w) :
    (s.put v ws c).context w = s.context w :=
  State.context_setContext_other (s := { s with mem := Memory.writeAll s.mem ws }) h

/-- Two contexts with their bytes, at different addresses, are put in any order. -/
theorem State.put_comm {s : State} {v w : Fin 4} {ws ws' : List ByteAt} (c c' : Context) (hvw : v ≠ w)
    (hm : Memory.wf s.mem = true) (hws : ∀ b ∈ ws, b.1 < Config.addrSpace) (hws' : ∀ b ∈ ws', b.1 < Config.addrSpace)
    (hne : ∀ b ∈ ws, ∀ b' ∈ ws', b.1 ≠ b'.1) : (s.put v ws c).put w ws' c' = (s.put w ws' c').put v ws c := by
  have hctx : (s.ctx.set v.val c).set w.val c' = (s.ctx.set w.val c').set v.val c :=
    Vector.set_comm _ _ fun e => hvw (Fin.ext e)
  simp only [State.put, State.setContext, Memory.writeAll_comm hm hws hws' hne, hctx]

/-- What a macroblock command with its coefficients does to the bytes and to its context: nothing when its checks fail; else an
MB_DECODE places a macroblock and an MB_ABORT fails the context (R201, R262). -/
inductive State.Serves (s : State) (v : Fin 4) (k : Vector CoefEntry 512) : Instr → List ByteAt → Context → Prop
  | reject {i : Instr} (hi : contextOf i = some v) (hr : ¬ s.Runs v) : s.Serves v k i [] (s.context v)
  | place (field : Bool) (hr : s.Runs v) (hc : (s.loadCoef k).CoefWritten)
      (hb : (s.loadCoef k).Backed Config.idct v field) :
      s.Serves v k (.mbDecode v field) ((s.loadCoef k).mbWritesWith Config.idct v field)
        (s.context v).advance
  | abort (hr : s.Runs v) : s.Serves v k (.mbAbort v) [] { s.context v with state := .failed }

/-- A latched frame in a canonical memory, with no race: what serving the contexts keeps. -/
structure State.Serving (s : State) : Prop where
  frame : s.HasFrame
  memory : Memory.wf s.mem = true
  race : s.raced = []

section
variable {s t : State} {v w : Fin 4} {k : Vector CoefEntry 512} {i : Instr} {ws : List ByteAt} {c : Context}

/-- Soundness is a matter of the served state. -/
theorem State.Serving.of_served (hs : t.served = s.served) (h : s.Serving) : t.Serving := by
  have h' : s.served.Serving := ⟨h.frame, h.memory, h.race⟩
  rw [← hs] at h'
  exact ⟨h'.frame, h'.memory, h'.race⟩

/-- What a macroblock command on a context reads, its coefficients apart, is the same in two states: the frame, the platform and
the context. -/
structure State.AgreesAt (s : State) (v : Fin 4) (t : State) : Prop where
  fActive : t.fActive = s.fActive
  frame : t.frame = s.frame
  geom : t.geom = s.geom
  destMap : t.destMap = s.destMap
  draws : t.draws = s.draws
  context : t.context v = s.context v

/-- States with one served state agree at every context. -/
theorem State.AgreesAt.of_served (hs : t.served = s.served) : s.AgreesAt v t :=
  ⟨(congrArg State.fActive hs :), (congrArg State.frame hs :), (congrArg State.geom hs :), (congrArg State.destMap hs :),
    (congrArg State.draws hs :), (congrArg (State.context · v) hs :)⟩

/-- Putting another context keeps what a command on this one reads. -/
theorem State.AgreesAt.of_put (hwv : w ≠ v) (hs : t.served = s.served.put w ws c) : s.AgreesAt v t :=
  ⟨(congrArg State.fActive hs :), (congrArg State.frame hs :), (congrArg State.geom hs :), (congrArg State.destMap hs :),
    (congrArg State.draws hs :), (congrArg (State.context · v) hs :).trans (State.context_put_other (s := s.served) hwv)⟩

/-- Agreement at a context is symmetric. -/
theorem State.AgreesAt.symm (h : s.AgreesAt v t) : t.AgreesAt v s :=
  ⟨h.fActive.symm, h.frame.symm, h.geom.symm, h.destMap.symm, h.draws.symm, h.context.symm⟩

/-- The checks of a macroblock command read its own context and the frame only (R201, R262). -/
theorem State.AgreesAt.runs_iff (h : s.AgreesAt v t) : t.Runs v ↔ s.Runs v := by
  simp only [State.Runs, h.fActive, h.geom, h.context]

/-- States that agree at a context have one platform (R72). -/
theorem State.AgreesAt.isMemory_eq (h : s.AgreesAt v t) (a : Nat) : t.isMemory a = s.isMemory a := by
  simp only [State.isMemory, h.destMap]

/-- The bytes of an MB_DECODE depend on its own context, its coefficients and the frame only (R201). -/
theorem State.AgreesAt.mbWritesWith_eq (h : s.AgreesAt v t) (idct : Idct) (field : Bool) :
    (t.loadCoef k).mbWritesWith idct v field = (s.loadCoef k).mbWritesWith idct v field := by
  have hframe : (t.loadCoef k).frame = (s.loadCoef k).frame := h.frame
  have hgeom : (t.loadCoef k).geom = (s.loadCoef k).geom := h.geom
  have hctx : (t.loadCoef k).context v = (s.loadCoef k).context v := h.context
  have hcoef : (t.loadCoef k).coefInt = (s.loadCoef k).coefInt := by
    funext n
    simp only [State.coefInt, State.coefBits, State.coefEntry, State.loadCoef, h.draws]
  simp only [State.mbWritesWith, hframe, hgeom, hctx, hcoef]

/-- What a macroblock command does depends on its own context and the latched frame only (R201, R262). -/
theorem State.Serves.congr (h : s.Serves v k i ws c) (ha : s.AgreesAt v t) : t.Serves v k i ws c := by
  cases h with
  | reject hi hr => rw [← ha.context]; exact .reject hi (mt ha.runs_iff.1 hr)
  | place field hr hc hb =>
    rw [← ha.context, ← ha.mbWritesWith_eq]
    refine .place field (ha.runs_iff.2 hr) hc fun b hm => ?_
    rw [ha.mbWritesWith_eq] at hm
    exact (ha.isMemory_eq b.1).trans (hb b hm)
  | abort hr => rw [← ha.context]; exact .abort (ha.runs_iff.2 hr)

/-! ## Issuing one command -/

/-- A macroblock command that serves its context completes with it (R138, R266). -/
theorem State.issue_of_serves (hraced : s.raced = []) (h : s.Serves v k i ws c) :
    ∃ t, s.issue i k = .next t ∧ t.served = s.served.put v ws c := by
  rw [State.issue_eq]
  cases h with
  | reject hi hr =>
    obtain ⟨e, he⟩ := exec_of_not_runs (s := s.issued i k) hi hr
    exact ⟨_, congrArg (Outcome.onNext · _) he, (State.served_complete hraced).trans s.served.put_self.symm⟩
  | place field hr hc hb =>
    exact ⟨_, congrArg (Outcome.onNext · _) (execMbDecodeWith_of_runs (s := s.issued _ k) hraced hr hc hb),
      State.served_complete hraced⟩
  | abort hr =>
    exact ⟨_, congrArg (Outcome.onNext · _) (execMbAbort_of_runs (s := s.issued _ k) hr), State.served_complete hraced⟩

/-- A macroblock command that completes serves its context (R266). -/
theorem State.serves_of_issue (hraced : s.raced = []) (hi : contextOf i = some v) (h : s.issue i k = .next t) :
    ∃ ws c, s.Serves v k i ws c ∧ t.served = s.served.put v ws c := by
  have hserves : ∃ ws c, s.Serves v k i ws c := by
    by_cases hr : s.Runs v
    · rw [State.issue_eq] at h
      obtain ⟨u, hu, -⟩ := Outcome.onNext_eq_next h
      cases i with
      | mbDecode v' field =>
        cases hi
        obtain ⟨hc, hb⟩ := execMbDecodeWith_next_of_runs (s := s.issued (.mbDecode v field) k) hraced hr hu
        exact ⟨_, _, .place field hr hc hb⟩
      | mbAbort v' => cases hi; exact ⟨_, _, .abort hr⟩
      | nop | frameStart | frameEnd => cases hi
    · exact ⟨_, _, .reject hi hr⟩
  obtain ⟨ws, c, hs⟩ := hserves
  obtain ⟨t', ht', hput⟩ := State.issue_of_serves hraced hs
  obtain rfl : t' = t := Host.Outcome.next.inj (ht'.symm.trans h)
  exact ⟨ws, c, hs, hput⟩

/-! ## Issuing commands of two contexts -/

/-- The bytes that a command writes exist (R70, R72). -/
theorem State.Serves.lt_addrSpace (h : s.Serves v k i ws c) : ∀ b ∈ ws, b.1 < Config.addrSpace := by
  cases h with
  | reject hi hr => exact nofun
  | place field hr hc hb => exact fun b hm => State.isMemory_lt (hb b hm)
  | abort hr => exact nofun

/-- The context that a command leaves in a latched frame is sound (R31, R201, R262). -/
theorem State.Serves.sound (h : s.Serves v k i ws c) (hf : s.HasFrame) :
    c.Sound s.frame.w.toNat s.frame.h.toNat s.frame.scan v := by
  obtain ⟨-, -, -, -, hsound⟩ := id hf
  cases h with
  | reject hi hr => exact hsound v
  | place field hr hc hb =>
    obtain ⟨hv, hleft⟩ := hr.mbIdx_lt hf
    exact (hsound v).advance hv hleft (blockCount_lt s.frame.w.isLt s.frame.h.isLt ..)
  | abort hr =>
    obtain ⟨hv, hleft⟩ := hr.mbIdx_lt hf
    exact (hsound v).fail hv hleft

/-- Serving a context keeps the frame sound, memory canonical and the host out of it. -/
theorem State.Serves.serving (h : s.Serves v k i ws c) (hs : s.Serving) : (s.put v ws c).Serving where
  frame := State.HasFrame.setContext (s := { s with mem := Memory.writeAll s.mem ws }) hs.frame (h.sound hs.frame)
  memory := Memory.wf_writeAll hs.memory h.lt_addrSpace
  race := hs.race

/-- Commands of two contexts of one latched frame write different bytes (R90). -/
theorem State.Serves.disjoint {k' : Vector CoefEntry 512} {i' : Instr} {ws' : List ByteAt} {c' : Context}
    (h : s.Serves v k i ws c) (h' : s.Serves w k' i' ws' c') (hf : s.HasFrame) (hvw : v ≠ w) :
    ∀ b ∈ ws, ∀ b' ∈ ws', b.1 ≠ b'.1 := by
  cases h with
  | reject hi hr => exact nofun
  | abort hr => exact nofun
  | place field hr hc hb =>
    cases h' with
    | reject hi hr => exact fun _ _ => nofun
    | abort hr => exact fun _ _ => nofun
    | place field' hr' hc' hb' =>
      exact differentMacroblocksWriteDisjointBytes (s.loadCoef k) (s.loadCoef k') Config.idct Config.idct v w field field' hf hf
        rfl hr hr' fun e => hvw (congrArg Prod.fst e)

/-- Issuing a macroblock command keeps the frame sound, memory canonical and the host out of it. -/
theorem State.Serving.issue (hs : s.Serving) (hi : contextOf i = some v) (h : s.issue i k = .next t) : t.Serving := by
  obtain ⟨ws, c, hserves, ht⟩ := State.serves_of_issue hs.race hi h
  exact (hserves.serving hs).of_served (ht.trans (s.served_put v ws c).symm)

/-- Issuing a macroblock command reads the served state only. -/
theorem State.issue_congr {s' : State} (hs : s.Serving) (hss : s'.served = s.served) (hi : contextOf i = some v)
    (h : s.issue i k = .next t) : ∃ t', s'.issue i k = .next t' ∧ t'.served = t.served := by
  obtain ⟨ws, c, hserves, ht⟩ := State.serves_of_issue hs.race hi h
  obtain ⟨t', ht', hput⟩ := State.issue_of_serves (hs.of_served hss).race (hserves.congr (.of_served hss))
  exact ⟨t', ht', by rw [hput, ht, hss]⟩

/-- Two commands of different contexts may be issued in either order (R266). -/
theorem State.issue_comm {u : State} {i' : Instr} {k' : Vector CoefEntry 512} (hs : s.Serving) (hi : contextOf i = some v)
    (hi' : contextOf i' = some w) (hvw : v ≠ w) (hu : s.issue i k = .next u) (ht : u.issue i' k' = .next t) :
    ∃ u' t', s.issue i' k' = .next u' ∧ u'.issue i k = .next t' ∧ t'.served = t.served := by
  obtain ⟨ws, c, hserves, huput⟩ := State.serves_of_issue hs.race hi hu
  obtain ⟨ws', c', hserves', htput⟩ := State.serves_of_issue (hs.issue hi hu).race hi' ht
  replace hserves' : s.Serves w k' i' ws' c' := hserves'.congr (State.AgreesAt.of_put hvw huput).symm
  obtain ⟨u', hu', huput'⟩ := State.issue_of_serves hs.race hserves'
  obtain ⟨t', ht', htput'⟩ :=
    State.issue_of_serves (hs.issue hi' hu').race (hserves.congr (State.AgreesAt.of_put hvw.symm huput'))
  refine ⟨u', t', hu', ht', ?_⟩
  rw [htput', huput', htput, huput]
  exact (State.put_comm (s := s.served) c c' hvw hs.memory hserves.lt_addrSpace hserves'.lt_addrSpace
    (hserves.disjoint hserves' hs.frame hvw)).symm

/-! ## Issuing lists of commands -/

/-- A list of commands completes when its first command does and then the others do. -/
theorem State.issueAll_cons_eq_next {d : Instr × Vector CoefEntry 512} {l : List (Instr × Vector CoefEntry 512)} :
    s.issueAll (d :: l) = .next t ↔ ∃ u, s.issue d.1 d.2 = .next u ∧ u.issueAll l = .next t := by
  refine ⟨Outcome.onNext_eq_next, fun ⟨u, hu, h⟩ => ?_⟩
  rw [State.issueAll, hu, Outcome.onNext_next, h]

/-- Issuing macroblock commands reads the served state only. -/
theorem State.issueAll_congr {s' : State} {l : List (Instr × Vector CoefEntry 512)} (hs : s.Serving)
    (hss : s'.served = s.served) (hl : ∀ d ∈ l, contextOf d.1 ≠ none) (h : s.issueAll l = .next t) :
    ∃ t', s'.issueAll l = .next t' ∧ t'.served = t.served := by
  induction l generalizing s s' with
  | nil => cases h; exact ⟨s', rfl, hss⟩
  | cons d l ih =>
    obtain ⟨hd, hl⟩ := List.forall_mem_cons.1 hl
    obtain ⟨v, hv⟩ := Option.ne_none_iff_exists'.1 hd
    obtain ⟨u, hu, h⟩ := State.issueAll_cons_eq_next.1 h
    obtain ⟨u', hu', huu⟩ := State.issue_congr hs hss hv hu
    obtain ⟨t', ht', htt⟩ := ih (hs.issue hv hu) huu hl h
    exact ⟨t', State.issueAll_cons_eq_next.2 ⟨u', hu', ht'⟩, htt⟩

/-- A command may be issued after commands of other contexts instead of before them (R266). -/
theorem State.issueAll_postpone {d : Instr × Vector CoefEntry 512} {p q : List (Instr × Vector CoefEntry 512)}
    (hs : s.Serving) (hd : contextOf d.1 = some v) (hp : ∀ e ∈ p, contextOf e.1 ≠ none ∧ contextOf e.1 ≠ some v)
    (hq : ∀ e ∈ q, contextOf e.1 ≠ none) (h : s.issueAll (d :: (p ++ q)) = .next t) :
    ∃ t', s.issueAll (p ++ d :: q) = .next t' ∧ t'.served = t.served := by
  induction p generalizing s t with
  | nil => exact ⟨t, h, rfl⟩
  | cons e p ih =>
    obtain ⟨⟨he, hev⟩, hp⟩ := List.forall_mem_cons.1 hp
    obtain ⟨w, hw⟩ := Option.ne_none_iff_exists'.1 he
    have hvw : v ≠ w := fun hvw => hev (hvw ▸ hw)
    obtain ⟨u, hu, h⟩ := State.issueAll_cons_eq_next.1 h
    obtain ⟨x, hx, h⟩ := State.issueAll_cons_eq_next.1 h
    obtain ⟨u', x', hu', hx', hxx⟩ := State.issue_comm hs hd hw hvw hu hx
    have hpq := List.forall_mem_append.2 ⟨fun e he => (hp e he).1, hq⟩
    obtain ⟨y, hy, hyt⟩ := State.issueAll_congr ((hs.issue hd hu).issue hw hx) hxx hpq h
    obtain ⟨t', ht', hty⟩ := ih (hs.issue hw hu') hp (State.issueAll_cons_eq_next.2 ⟨x', hx', hy⟩)
    exact ⟨t', State.issueAll_cons_eq_next.2 ⟨u', hu', ht'⟩, hty.trans hyt⟩

/-- Two lists that hold the same macroblock commands in the same order for every context leave the same served state (R266). -/
theorem State.issueAll_interleave {l l' : List (Instr × Vector CoefEntry 512)} (hs : s.Serving)
    (hl : ∀ d ∈ l, contextOf d.1 ≠ none) (hl' : ∀ d ∈ l', contextOf d.1 ≠ none)
    (heq : ∀ v : Fin 4, l.filter (fun d => contextOf d.1 = some v) = l'.filter (fun d => contextOf d.1 = some v))
    (h : s.issueAll l = .next t) : ∃ t', s.issueAll l' = .next t' ∧ t'.served = t.served := by
  induction l generalizing s l' with
  | nil =>
    obtain rfl : l' = [] := List.eq_nil_iff_forall_not_mem.2 fun d hd => by
      obtain ⟨v, hv⟩ := Option.ne_none_iff_exists'.1 (hl' d hd)
      exact List.filter_eq_nil_iff.1 (heq v).symm d hd (decide_eq_true hv)
    exact ⟨t, h, rfl⟩
  | cons d l ih =>
    obtain ⟨hd, hl⟩ := List.forall_mem_cons.1 hl
    obtain ⟨v, hv⟩ := Option.ne_none_iff_exists'.1 hd
    have hfirst := heq v
    rw [List.filter_cons_of_pos (by simpa using hv)] at hfirst
    obtain ⟨p, q, rfl, hpv, -, -⟩ := List.filter_eq_cons_iff.1 hfirst.symm
    obtain ⟨hp, hdq⟩ := List.forall_mem_append.1 hl'
    obtain ⟨-, hq⟩ := List.forall_mem_cons.1 hdq
    have hother : ∀ e ∈ p, contextOf e.1 ≠ none ∧ contextOf e.1 ≠ some v :=
      fun e he => ⟨hp e he, fun hev => hpv e he (decide_eq_true hev)⟩
    have hrest : ∀ w : Fin 4,
        l.filter (fun e => contextOf e.1 = some w) = (p ++ q).filter (fun e => contextOf e.1 = some w) := by
      intro w
      have hw := heq w
      by_cases hvw : v = w
      · subst hvw
        have hnone : p.filter (fun e => contextOf e.1 = some v) = [] := List.filter_eq_nil_iff.2 hpv
        simpa [hv, hnone] using hw
      · simpa [hv, hvw] using hw
    obtain ⟨u, hu, h⟩ := State.issueAll_cons_eq_next.1 h
    obtain ⟨x, hx, hxt⟩ := ih (hs.issue hv hu) hl (List.forall_mem_append.2 ⟨hp, hq⟩) hrest h
    obtain ⟨t', ht', htx⟩ := State.issueAll_postpone hs hv hother hq (State.issueAll_cons_eq_next.2 ⟨u, hu, hx⟩)
    exact ⟨t', ht', htx.trans hxt⟩

end

end Sys2Proof.Machine
end

section
/-! The obligations on frame control (44_frame_control.md). -/

namespace Sys2Proof.Machine

/-- Settles O48: the first command of one list stands in the other behind commands of other contexts only, and commands of
different contexts commute up to the error record, the flags and the coefficient RAM. -/
theorem interleavingOfContextsDoesNotMatter : Obligations.InterleavingOfContextsDoesNotMatter := by
  unfold Obligations.InterleavingOfContextsDoesNotMatter
  intro s t l l' hf _ hm hraced hl hl' heq h
  obtain ⟨t', ht', hserved⟩ := State.issueAll_interleave ⟨hf, hm, hraced⟩ hl hl' heq h
  exact ⟨t', ht', (congrArg State.mem hserved :), (congrArg State.ctx hserved :), (congrArg State.geom hserved :),
    (congrArg State.frame hserved :), (congrArg State.fActive hserved :)⟩

/-- Settles O45: NOP leaves the state as it is, and its step only completes. -/
theorem nopOnlyCompletes : Obligations.NopOnlyCompletes := by
  unfold Obligations.NopOnlyCompletes
  refine fun s rest => ⟨rfl, fun hbusy hin hword => ?_⟩
  have hdec : decode (s.withInputs rest).cmdWord = .ok .nop := by
    rw [State.withInputs_cmdWord, hword]
    exact decode_encode .nop
  rw [step_of_datapath hin hbusy, completionStep_of_command hdec]
  rfl

end Sys2Proof.Machine
end

section
/-! SUPPORT. What either reset leaves: the block's state (R340, R341), and the bytes of the command it aborts (R342). -/

namespace Sys2Proof.Machine

/-- A reset that fills COEF with one entry leaves the block in its reset state (R340, R341). -/
theorem State.blockIsReset_resetBlock (s : State) (c : CoefEntry) :
    (s.resetBlock (Vector.replicate 512 c)).BlockIsReset c := by
  have hgeom : (s.resetBlock (Vector.replicate 512 c)).NoGeometry :=
    ⟨rfl, rfl, rfl, fun v => by simp [State.context]⟩
  have hirq : (s.resetBlock (Vector.replicate 512 c)).irq = false := by simp [State.irq]
  have hcoef (n : Nat) (hn : n < 512) : (s.resetBlock (Vector.replicate 512 c)).coefEntry n = c := by
    simp [State.coefEntry, hn]
  exact ⟨rfl, rfl, rfl, rfl, rfl, rfl, rfl, rfl, rfl, hgeom, hirq, rfl, rfl, hcoef⟩

/-- Aborting a command whose bytes are all ordinary memory changes destination memory and the draw counter only: each byte
is the old one or the command's (R342), and with no command in flight memory stays. -/
theorem State.abortInFlight_of_memory {s : State} (h : ∀ w ∈ s.pendingWrites, s.isMemory w.1 = true) :
    ∃ m n, s.abortInFlight = .next { s with mem := m, draws := n } ∧ (s.busy = false → m = s.mem)
      ∧ ∀ a, Memory.read m a = Memory.read s.mem a ∨ ∃ v, (a, v) ∈ s.pendingWrites ∧ Memory.read m a = some v := by
  unfold State.abortInFlight
  by_cases hb : s.busy = true
  · rw [if_pos hb, State.putBytes_of_memory _ fun w hw => h w (State.landingAborted_subset hw)]
    refine ⟨_, _, rfl, fun hidle => by simp [hb] at hidle, fun a => ?_⟩
    exact (Memory.read_writeAll_cases s.mem _ a).imp_right fun ⟨v, hv, hr⟩ => ⟨v, State.landingAborted_subset hv, hr⟩
  · rw [if_neg hb]
    exact ⟨s.mem, s.draws, rfl, fun _ => rfl, fun _ => .inl rfl⟩

end Sys2Proof.Machine
end

section
/-! The obligations on reset (70_reset_and_hazards.md). -/

namespace Sys2Proof.Machine

/-- Settles O52: a write of CTRL with SOFT_RESET aborts the command in flight, which touches memory only, and then resets the
block, which does not touch it. -/
theorem softResetAbortsTheCommandInFlight : Obligations.SoftResetAbortsTheCommandInFlight := by
  unfold Obligations.SoftResetAbortsTheCommandInFlight
  intro s d rest hin hreset hmem
  obtain ⟨m, n, habort, hidle, hread⟩ := State.abortInFlight_of_memory (s := s.withInputs rest) hmem
  have hstep : step s = .next (State.resetBlock { s.withInputs rest with mem := m, draws := n }
      (Vector.replicate 512 (.written 0))) := by
    rw [step_of_write .ctrl hin, writeReg, writeCtrl, if_pos hreset, State.softReset, habort, Outcome.onNext_next]
  exact ⟨_, hstep, State.blockIsReset_resetBlock _ _, rfl, rfl, rfl, hidle, hread⟩

end Sys2Proof.Machine
end

section
/-! SUPPORT. Decoding undoes encoding and nothing else decodes to a command (R73, R101 to R106). -/

namespace Sys2Proof

/-- Legal fields are those of the command they select (R103). -/
theorem Cmdw.cmdw_instr {c : Cmdw} (h : c.illegal? = none) : c.instr.cmdw = c := by
  obtain ⟨op, vb, field, rsv⟩ := c
  obtain ⟨hop, hvb, hfield, hrsv⟩ := (Cmdw.illegal?_eq_none_iff _).1 h
  simp only at hop hvb hfield hrsv
  subst hrsv
  obtain rfl | rfl | rfl | rfl | rfl : op = 0 ∨ op = 1 ∨ op = 2 ∨ op = 3 ∨ op = 4 := by bv_omega
  case inr.inr.inl => revert vb field; decide
  case inr.inr.inr.inl =>
    obtain rfl : field = 0 := by simpa using hfield
    revert vb; decide
  all_goals
    obtain rfl : vb = 0 := by simpa using hvb
    obtain rfl : field = 0 := by simpa using hfield
    rfl

/-- A command's word carries its fields (R100, R106). -/
theorem Cmdw.ofWord_encode (i : Instr) : Cmdw.ofWord (encode i) = i.cmdw := by
  cases i with
  | nop => exact Laws.EncodesInTable.nop.2.1
  | frameStart => exact Laws.EncodesInTable.frameStart.2.1
  | mbDecode vb field => exact (Laws.EncodesInTable.mbDecode vb field).2.1
  | mbAbort vb => exact (Laws.EncodesInTable.mbAbort vb).2.1
  | frameEnd => exact Laws.EncodesInTable.frameEnd.2.1

/-- A word decodes to a command exactly when it is the command's word: legal fields are their command's, and a word is its
fields (R102, R106). -/
theorem decode_eq_ok_iff_eq_encode (w : Word) (i : Instr) : decode w = .ok i ↔ w = encode i := by
  constructor
  · intro h
    obtain ⟨hlegal, rfl⟩ := (decode_eq_ok_iff w i).1 h
    apply Cmdw.ofWord_injective
    rw [Cmdw.ofWord_encode, Cmdw.cmdw_instr hlegal]
  · rintro rfl
    exact Machine.decode_encode i

/-- The byte lanes of a word make up the word (R73). -/
theorem bytesWord_lanes (w : Word) :
    bytesWord (w.extractLsb' 0 8) (w.extractLsb' 8 8) (w.extractLsb' 16 8) (w.extractLsb' 24 8) = w := by
  simp (disch := decide) only [bytesWord, BitVec.extractLsb'_append_extractLsb'_eq_extractLsb']
  exact BitVec.extractLsb'_eq_self

/-- Decoding a word's bytes decodes the word and leaves the bytes after it (R73, R101). -/
theorem decodeBytes_wordBytes (w : Word) (rest : List Byte) :
    decodeBytes (wordBytes w ++ rest) = (decode w).map fun i => (i, rest) := by
  simp only [wordBytes, List.cons_append, List.nil_append, decodeBytes, bytesWord_lanes]
  cases decode w <;> rfl

/-- Fewer than four bytes are no whole command word (R101). -/
theorem decodeBytes_of_short {bs : List Byte} (h : bs.length < 4) : decodeBytes bs = .error .shortWord := by
  match bs, h with
  | [], _ | [_], _ | [_, _], _ | [_, _, _], _ => rfl
  | _ :: _ :: _ :: _ :: _, h => simp at h; omega

end Sys2Proof
end

section
/-! The obligation on decoding (30_encoding.md). -/

namespace Sys2Proof

/-- Settles O2: a word is its fields, and legal fields are those of the command they select. -/
theorem decodeIsExactlyEncode : Obligations.DecodeIsExactlyEncode := by
  unfold Obligations.DecodeIsExactlyEncode
  refine ⟨decode_eq_ok_iff_eq_encode, fun w rest i => ?_, fun bs => decodeBytes_of_short⟩
  rw [decodeBytes_wordBytes, ← decode_eq_ok_iff_eq_encode]
  cases decode w <;> simp [Except.map]

end Sys2Proof
end

section
/-! SUPPORT. All that one step can do to the state, said once: what executing a command leaves, what a host operation leaves,
and what a step leaves (R130 to R143, R340, R341). Every invariant of the steps is a case analysis of these. -/

namespace Sys2Proof.Machine

/-! ## Executing the accepted word -/

/-- An error that a macroblock command's checks find has a code (R202, R263, R300). -/
theorem State.code_of_ctxError? {s : State} {vb : Fin 4} {e : CtxError} (h : s.ctxError? vb = some e) : e.code ≠ .none := by
  unfold State.ctxError? at h
  split_ifs at h <;> cases h <;> exact nofun

/-- What executing the accepted word can leave (R139). -/
inductive State.Executes (s : State) : State → Prop
  /-- NOP changes nothing (R260). -/
  | nothing : s.Executes s
  /-- A command that raises its error changes nothing else (R104, R202, R263, R264). -/
  | raises (code : ErrCode) (vb : BitVec 2) (mb : Word) (hc : code ≠ .none) : s.Executes (s.recordError code vb mb)
  /-- FRAME_START that fails a check leaves no geometry (R163, R164). -/
  | rejectsFrame (hw : decode s.cmdWord = .ok .frameStart) (code : ErrCode) (hc : code ≠ .none) :
      s.Executes (s.clearError.enterNoGeometry.recordError code 0 0)
  /-- FRAME_START latches a frame that passes its checks (R160). -/
  | latchesFrame (hw : decode s.cmdWord = .ok .frameStart)
      (hg : geometryOk s.cmdCfg.width.toNat s.cmdCfg.height.toNat = true)
      (hr : resourceOk s.cmdCfg.width.toNat s.cmdCfg.height.toNat s.cmdCfg.fmt s.cmdCfg.destBase.toNat
        s.cmdCfg.destStride.toNat s.cmdCfg.destSize.toNat = true) :
      s.Executes (s.clearError.enterNoGeometry.latchFrame s.cmdCfg)
  /-- MB_DECODE puts bytes of its macroblock into memory and advances its context (R201). -/
  | places (vb : Fin 4) (field : Bool) (hw : decode s.cmdWord = .ok (.mbDecode vb field)) (hr : s.Runs vb) (ws : List ByteAt)
      (n : Nat) (hws : ∀ w ∈ ws, w ∈ s.mbWritesWith Config.idct vb field ∧ s.isMemory w.1 = true) :
      s.Executes (({ s with mem := Memory.writeAll s.mem ws, draws := n } : State).setContext vb
        (s.context vb).advance).autoClearCoef
  /-- MB_ABORT fails its context and signals BITSTREAM (R262). -/
  | aborts (vb : Fin 4) (hw : decode s.cmdWord = .ok (.mbAbort vb)) (hr : s.Runs vb) :
      s.Executes ((s.setContext vb { s.context vb with state := .failed }).recordError .bitstream (BitVec.ofNat 2 vb.val)
        (s.context vb).mbIdx).autoClearCoef
  /-- FRAME_END ends the frame (R264). -/
  | endsFrame : s.Executes { s with fActive := false }
  /-- FRAME_END ends the frame and signals INCOMPLETE (R264). -/
  | endsUnfinished (vb : BitVec 2) (mb : Word) :
      s.Executes (({ s with fActive := false } : State).recordError .incomplete vb mb)

/-- Executing the accepted word does one of these. -/
theorem State.executes_of_execute {s t : State} (h : execute s = .next t) : s.Executes t := by
  unfold execute at h
  split at h
  · next i hw =>
    cases i with
    | nop => cases h; exact .nothing
    | frameStart =>
      obtain ⟨-, rfl⟩ | ⟨-, -, rfl⟩ | ⟨hg, hr, rfl⟩ := execFrameStart_cases h
      · exact .rejectsFrame hw .geometry nofun
      · exact .rejectsFrame hw .resource nofun
      · exact .latchesFrame hw hg hr
    | mbDecode vb field =>
      obtain ⟨e, he, rfl⟩ | ⟨hr, -, hm, n, rfl⟩ := execMbDecodeWith_cases h
      · exact .raises _ _ _ (State.code_of_ctxError? he)
      · exact .places vb field hw hr _ _ fun w hm' => ⟨State.landing_subset hm', hm w hm'⟩
    | mbAbort vb =>
      obtain ⟨e, he, rfl⟩ | ⟨hr, rfl⟩ := execMbAbort_cases h
      · exact .raises _ _ _ (State.code_of_ctxError? he)
      · exact .aborts vb hw hr
    | frameEnd =>
      obtain ⟨-, rfl⟩ | ⟨-, -, rfl⟩ | ⟨v, -, -, rfl⟩ := execFrameEnd_cases h
      · exact .raises _ _ _ nofun
      · exact .endsFrame
      · exact .endsUnfinished ..
  · cases h; exact .raises _ _ _ nofun

/-! ## Resets -/

/-- What aborting the command in flight can leave: some of its bytes are written (R342). -/
def State.Aborts (s t : State) : Prop :=
  ∃ ws n, (∀ w ∈ ws, w ∈ s.pendingWrites ∧ s.isMemory w.1 = true)
    ∧ t = { s with mem := Memory.writeAll s.mem ws, draws := n }

/-- With no command in flight an abort writes nothing. -/
theorem State.aborts_of_abortInFlight {s t : State} (h : s.abortInFlight = .next t) : s.Aborts t := by
  obtain ⟨-, rfl⟩ | ⟨-, hm, n, rfl⟩ := State.abortInFlight_cases h
  · exact ⟨[], _, nofun, rfl⟩
  · exact ⟨_, _, fun w hw => ⟨State.landingAborted_subset hw, hm w hw⟩, rfl⟩

/-- What either reset can leave: the command in flight is aborted and the block is reset (R340, R341). -/
def State.Resets (s t : State) : Prop := ∃ u k, s.Aborts u ∧ t = u.resetBlock k

/-- Either reset does that, whatever it fills the coefficient RAM with. -/
theorem State.resets_of_abort {s t : State} {k : Vector CoefEntry 512}
    (h : s.abortInFlight.onNext (fun u => .next (u.resetBlock k)) = .next t) : s.Resets t := by
  obtain ⟨u, hu, ht⟩ := Outcome.onNext_eq_next h
  cases ht
  exact ⟨u, k, State.aborts_of_abortInFlight hu, rfl⟩

section
variable {s t : State} (h : s.Resets t)
include h

/-- No reset leaves a frame geometry (R51, R52). -/
theorem State.Resets.noGeometry : t.NoGeometry := by
  obtain ⟨u, k, -, rfl⟩ := h
  exact ⟨rfl, rfl, rfl, fun v => (u.resetBlock k).context_unused v rfl⟩

/-- A reset clears the error record (R52). -/
theorem State.Resets.errorRecord : t.errCode = .none ∧ t.errVb = 0 ∧ t.errMb = 0 := by
  obtain ⟨u, k, -, rfl⟩ := h
  exact ⟨rfl, rfl, rfl⟩

/-- A reset leaves no command in flight and no race (R52, R342). -/
theorem State.Resets.noCommand : t.busy = false ∧ t.raced = [] := by
  obtain ⟨u, k, -, rfl⟩ := h
  exact ⟨rfl, rfl⟩

/-- A reset clears INT_STATUS (R52). -/
theorem State.Resets.intStatus : t.intStatus = 0 := by
  obtain ⟨u, k, -, rfl⟩ := h
  rfl

end

/-! ## Host operations -/

/-- What a host operation can leave (R130). -/
inductive State.HostMoves (s : State) : HostOp → State → Prop
  /-- A read or a load answers (R85, R131). -/
  | answers (op : HostOp) (r : Response) (n : Nat) : s.HostMoves op { s with response := r, draws := n }
  /-- A write sets AUTO_CLEAR, INT_ENABLE, a configuration register or a coefficient word, or is ignored (R133, R136, R140,
  R142, R143). -/
  | sets (op : HostOp) (a : Bool) (e : BitVec 3) (c : FrameConfig) (k : Vector CoefEntry 512) :
      s.HostMoves op { s with autoClear := a, intEnable := e, cfg := c, coef := k }
  /-- A write of INT_STATUS clears bits (R141). -/
  | clears (op : HostOp) (m : BitVec 3) : s.HostMoves op { s with intStatus := s.intStatus &&& m }
  /-- A write of CMD is accepted (R134). -/
  | accepts (d : Word) (hb : s.busy = false) : s.HostMoves (.write .word 0x040 d) (s.accept d)
  /-- A write of CMD or COEF is dropped (R135, R136). -/
  | drops (o : Nat) (d : Word) (ho : o = 0x040 ∨ 0x400 ≤ o) (hb : s.busy = true) : s.HostMoves (.write .word o d) s.overrun
  /-- A write of CTRL resets the block (R143, R341). -/
  | resets (d : Word) (hd : d.getLsbD 0 = true) {t : State} (ht : s.Resets t) : s.HostMoves (.write .word 0x004 d) t
  /-- A store writes its byte (R85). -/
  | stores (a : Word) (v : Byte) (hm : s.isMemory a.toNat = true) :
      s.HostMoves (.store a v) { s with
        mem := Memory.write s.mem a.toNat v, raced := if s.busy then a.toNat :: s.raced else s.raced }

/-- A write of a register does one of these. -/
theorem State.hostMoves_of_writeReg {s t : State} {d : Word} {r : Reg} (h : writeReg s d r = .next t) :
    s.HostMoves (.write .word r.offset d) t := by
  cases r with
  | ctrl =>
    simp only [writeReg, writeCtrl] at h
    split at h
    · next hd => exact .resets d hd (State.resets_of_abort h)
    · cases h; exact .sets _ (d.getLsbD 1) s.intEnable s.cfg s.coef
  | intStatus => cases h; exact .clears ..
  | cmd =>
    cases h
    cases hb : s.busy with
    | false => rw [writeCmd_of_idle hb]; exact .accepts d hb
    | true => rw [writeCmd_of_busy hb]; exact .drops _ d (.inl rfl) hb
  | coef j =>
    cases h
    cases hb : s.busy with
    | false => rw [writeCoef_of_idle hb]; exact .sets _ s.autoClear s.intEnable s.cfg (s.storeCoefWord j.val d).coef
    | true => rw [writeCoef_of_busy hb]; exact .drops _ d (.inr (Nat.le_add_right ..)) hb
  | intEnable => cases h; exact .sets _ s.autoClear _ s.cfg s.coef
  | frameSize | frameMode | destBase | destStride | destSize => cases h; exact .sets _ s.autoClear s.intEnable _ s.coef
  | _ => cases h; exact .sets _ s.autoClear s.intEnable s.cfg s.coef

/-- A host operation does one of these. -/
theorem State.hostMoves_of_hostStep {s t : State} {op : HostOp} (h : hostStep s op = .next t) : s.HostMoves op t := by
  cases op with
  | read width o =>
    obtain ⟨-, -, -, hread⟩ := windowAccess_next h
    obtain ⟨v, n, hv⟩ := readWindow_eq s o
    cases hread
    rw [hv]
    exact .answers ..
  | write width o d =>
    obtain ⟨-, rfl, -, hwrite⟩ := windowAccess_next h
    unfold writeWindow at hwrite
    split at hwrite
    · next r hr =>
      obtain rfl := Reg.offset_of_regAt? hr
      exact State.hostMoves_of_writeReg hwrite
    · cases hwrite; exact .sets _ s.autoClear s.intEnable s.cfg s.coef
  | load a => obtain ⟨-, n, rfl⟩ := hostLoad_next h; exact .answers ..
  | store a v => obtain ⟨hm, rfl⟩ := hostStore_next h; exact .stores a v hm

/-! ## Steps -/

/-- What a step can leave (R130). -/
inductive State.Steps (s : State) : State → Prop
  /-- The datapath does nothing while BUSY = 0 (R325). -/
  | idles (rest : List Input) (hb : s.busy = false) : s.Steps (s.withInputs rest)
  /-- The datapath completes the command in flight (R138). -/
  | completes (rest : List Input) (hin : ∀ op rest', s.inputs ≠ .host op :: rest') (hb : s.busy = true) {u : State}
      (hu : (s.withInputs rest).Executes u) : s.Steps u.complete
  /-- The host moves (R130). -/
  | host (op : HostOp) (rest : List Input) (hin : s.inputs = .host op :: rest) {t : State}
      (ht : (s.withInputs rest).HostMoves op t) : s.Steps t
  /-- The platform powers the block up (R340). -/
  | powersOn (rest : List Input) (hin : s.inputs = .powerOn :: rest) {t : State} (ht : (s.withInputs rest).Resets t) : s.Steps t

/-- The datapath's turn, with whatever input it takes, does one of these. -/
theorem State.steps_of_datapathStep {s t : State} {rest : List Input} (hin : ∀ op rest', s.inputs ≠ .host op :: rest')
    (h : datapathStep (s.withInputs rest) = .next t) : s.Steps t := by
  obtain ⟨hb, rfl⟩ | ⟨hb, u, hu, rfl⟩ := datapathStep_cases h
  · exact .idles rest hb
  · exact .completes rest hin hb (State.executes_of_execute hu)

/-- Every step does one of these. -/
theorem State.steps_of_step {s t : State} (h : step s = .next t) : s.Steps t := by
  obtain ⟨hin, hs⟩ | ⟨rest, hin, hs⟩ | ⟨op, rest, hin, hs⟩ | ⟨rest, hin, hs⟩ := step_cases s <;> rw [hs] at h
  · have hself : s.withInputs [] = s := hin ▸ rfl
    exact State.steps_of_datapathStep (by simp [hin]) (hself ▸ h)
  · exact State.steps_of_datapathStep (by simp [hin]) h
  · exact .host op rest hin (State.hostMoves_of_hostStep h)
  · exact .powersOn rest hin (State.resets_of_abort h)

end Sys2Proof.Machine
end

section
/-! SUPPORT. What every step keeps: the canonical form of memory, a sound frame, a sound error record, and no race without a
command in flight. -/

namespace Sys2Proof.Machine

/-! ## Memory -/

section
variable {s t : State}

/-- Writing bytes that are ordinary memory keeps the canonical form (R70, R72). -/
theorem Memory.wf_writeAll_isMemory {ws : List ByteAt} (hm : Memory.wf s.mem = true) (h : ∀ w ∈ ws, s.isMemory w.1 = true) :
    Memory.wf (Memory.writeAll s.mem ws) = true :=
  Memory.wf_writeAll hm fun w hw => State.isMemory_lt (h w hw)

/-- A command keeps the canonical form: it writes ordinary memory only (R70, R72). -/
theorem State.Executes.wf (h : s.Executes t) (hm : Memory.wf s.mem = true) : Memory.wf t.mem = true := by
  cases h with
  | places vb field hw hr ws n hws => exact Memory.wf_writeAll_isMemory hm fun w hw => (hws w hw).2
  | _ => exact hm

/-- A reset keeps the canonical form: the bytes it lands are ordinary memory (R342). -/
theorem State.Resets.wf (h : s.Resets t) (hm : Memory.wf s.mem = true) : Memory.wf t.mem = true := by
  obtain ⟨_, k, ⟨ws, n, hws, rfl⟩, rfl⟩ := h
  exact Memory.wf_writeAll_isMemory hm fun w hw => (hws w hw).2

/-- A host operation keeps the canonical form: a store is to ordinary memory (R72). -/
theorem State.HostMoves.wf {op : HostOp} (h : s.HostMoves op t) (hm : Memory.wf s.mem = true) : Memory.wf t.mem = true := by
  cases h with
  | resets d hd ht => exact ht.wf hm
  | stores a v ha => exact Memory.wf_write hm (State.isMemory_lt ha)
  | _ => exact hm

/-- A step keeps the canonical form of memory (R70). -/
theorem State.Steps.wf (h : s.Steps t) (hm : Memory.wf s.mem = true) : Memory.wf t.mem = true := by
  cases h with
  | idles rest hb => exact hm
  | completes rest hin hb hu => exact hu.wf hm
  | host op rest hin ht => exact ht.wf hm
  | powersOn rest hin ht => exact ht.wf hm

/-! ## The frame -/

/-- A context that passes the checks of a macroblock command belongs to a latched frame (R201, R262). -/
theorem State.Runs.hasFrame {vb : Fin 4} (hr : s.Runs vb) (hf : s.FrameSound) : s.HasFrame := by
  obtain ⟨hactive, -⟩ := hr
  obtain ⟨hinactive, -⟩ | hf := hf
  · simp [hinactive] at hactive
  · exact hf

/-- Entering "no frame geometry" does so (R51). -/
theorem State.noGeometry_enterNoGeometry (s : State) : s.enterNoGeometry.NoGeometry :=
  ⟨rfl, rfl, rfl, fun v => s.enterNoGeometry.context_unused v rfl⟩

/-- A command keeps the frame sound: FRAME_START makes it so, and a macroblock command moves one context on (R31, R165, R201,
R262). -/
theorem State.Executes.frameSound (h : s.Executes t) (hf : s.FrameSound) : t.FrameSound := by
  cases h with
  | nothing => exact hf
  | raises code vb mb hc => exact hf
  | rejectsFrame hw code hc => exact .inl s.clearError.noGeometry_enterNoGeometry
  | latchesFrame hw hg hr => exact .inr (State.latchFrame_hasFrame _ hg hr)
  | places vb field hw hr ws n hws =>
    have hframe := hr.hasFrame hf
    obtain ⟨hv, hleft⟩ := hr.mbIdx_lt hframe
    obtain ⟨-, -, -, -, hsound⟩ := id hframe
    exact .inr (State.HasFrame.setContext (s := { s with mem := _, draws := n }) hframe
      ((hsound vb).advance hv hleft (blockCount_lt s.frame.w.isLt s.frame.h.isLt ..)))
  | aborts vb hw hr =>
    have hframe := hr.hasFrame hf
    obtain ⟨hv, hleft⟩ := hr.mbIdx_lt hframe
    obtain ⟨-, -, -, -, hsound⟩ := id hframe
    exact .inr (State.HasFrame.setContext hframe ((hsound vb).fail hv hleft))
  | endsFrame | endsUnfinished => exact hf.imp_left fun ⟨_, hrest⟩ => ⟨rfl, hrest⟩

/-- A host operation keeps the frame sound: only a soft reset touches it (R341). -/
theorem State.HostMoves.frameSound {op : HostOp} (h : s.HostMoves op t) (hf : s.FrameSound) : t.FrameSound := by
  cases h with
  | resets d hd ht => exact .inl ht.noGeometry
  | _ => exact hf

/-- A step keeps the frame sound (R47, R51). -/
theorem State.Steps.frameSound (h : s.Steps t) (hf : s.FrameSound) : t.FrameSound := by
  cases h with
  | idles rest hb => exact hf
  | completes rest hin hb hu => exact hu.frameSound hf
  | host op rest hin ht => exact ht.frameSound hf
  | powersOn rest hin ht => exact .inl ht.noGeometry

/-! ## The error record -/

/-- A recorded error leaves a code (R303). -/
theorem State.errCode_recordError_ne {code : ErrCode} (hc : code ≠ .none) (s : State) (vb : BitVec 2) (mb : Word) :
    (s.recordError code vb mb).errCode ≠ .none := by
  simp only [State.recordError_errCode]
  split <;> assumption

/-- A state that has just recorded an error has a sound record. -/
theorem State.errorSound_recordError {code : ErrCode} (hc : code ≠ .none) (s : State) (vb : BitVec 2) (mb : Word) :
    (s.recordError code vb mb).ErrorSound :=
  fun h => absurd h (s.errCode_recordError_ne hc vb mb)

/-- A command keeps the error record sound: what it records has a code, and FRAME_START clears it (R160, R303). -/
theorem State.Executes.errorSound (h : s.Executes t) (he : s.ErrorSound) : t.ErrorSound := by
  cases h with
  | nothing | places | endsFrame => exact he
  | raises code vb mb hc => exact s.errorSound_recordError hc vb mb
  | rejectsFrame hw code hc => exact State.errorSound_recordError hc _ 0 0
  | latchesFrame => exact fun _ => ⟨rfl, rfl⟩
  | aborts vb hw hr => exact State.errorSound_recordError (code := .bitstream) nofun _ _ _
  | endsUnfinished vb mb => exact State.errorSound_recordError (code := .incomplete) nofun _ _ _

/-- A host operation keeps the error record sound: only a soft reset touches it (R302, R341). -/
theorem State.HostMoves.errorSound {op : HostOp} (h : s.HostMoves op t) (he : s.ErrorSound) : t.ErrorSound := by
  cases h with
  | resets d hd ht => exact fun _ => ht.errorRecord.2
  | _ => exact he

/-- A step keeps the error record sound (R303). -/
theorem State.Steps.errorSound (h : s.Steps t) (he : s.ErrorSound) : t.ErrorSound := by
  cases h with
  | idles rest hb => exact he
  | completes rest hin hb hu => exact hu.errorSound he
  | host op rest hin ht => exact ht.errorSound he
  | powersOn rest hin ht => exact fun _ => ht.errorRecord.2

/-! ## Races -/

/-- A host operation races only with a command in flight (R85). -/
theorem State.HostMoves.raceSound {op : HostOp} (h : s.HostMoves op t) (hr : s.RaceSound) : t.RaceSound := by
  cases h with
  | accepts d hb => exact nofun
  | resets d hd ht => exact fun _ => ht.noCommand.2
  | stores a v hm => exact fun (hb : s.busy = false) => by simpa [hb] using hr hb
  | _ => exact hr

/-- A step leaves races only with a command in flight (R85). -/
theorem State.Steps.raceSound (h : s.Steps t) (hr : s.RaceSound) : t.RaceSound := by
  cases h with
  | idles rest hb => exact hr
  | completes rest hin hb hu => exact fun _ => rfl
  | host op rest hin ht => exact ht.raceSound hr
  | powersOn rest hin ht => exact fun _ => ht.noCommand.2

end

end Sys2Proof.Machine
end

section
/-! The obligations on the invariant. -/

namespace Sys2Proof.Machine

/-- Settles O57: only bytes that are ordinary memory are written, and their addresses exist. -/
theorem stepKeepsMemoryCanonical : Obligations.StepKeepsMemoryCanonical := by
  unfold Obligations.StepKeepsMemoryCanonical
  exact fun s t hm h => (State.steps_of_step h).wf hm

/-- Settles O59: each part of the invariant over all that a step can do. -/
theorem stepKeepsTheInvariant : Obligations.StepKeepsTheInvariant := by
  unfold Obligations.StepKeepsTheInvariant
  intro s t hs h
  have hstep := State.steps_of_step h
  exact ⟨hstep.wf hs.memory, hstep.frameSound hs.frame, hstep.errorSound hs.error, hstep.raceSound hs.race⟩

/-- Settles O58: reset lists no memory, latches no frame, records no error and has no race. -/
theorem resetMeetsTheInvariant : Obligations.ResetMeetsTheInvariant := by
  unfold Obligations.ResetMeetsTheInvariant
  exact ⟨rfl, .inl ⟨rfl, rfl, rfl, fun v => State.reset.context_unused v rfl⟩, fun _ => ⟨rfl, rfl⟩, fun _ => rfl⟩

end Sys2Proof.Machine
end

section
/-! SUPPORT. Which steps set a flag, move a context, change the error record or change a byte (R27, R31, R70, R302). -/

namespace Sys2Proof.Machine

section
variable {s t : State}

/-! ## Flags -/

/-- CMD_DONE is bit 0 of INT_STATUS (R27). -/
@[simp] theorem getLsbD_intCmdDone : ∀ i, intCmdDone.getLsbD i = decide (i = 0)
  | 0 | 1 | 2 => rfl
  | i + 3 => by simp

/-- ERR is bit 1 of INT_STATUS (R27). -/
@[simp] theorem getLsbD_intErr : ∀ i, intErr.getLsbD i = decide (i = 1)
  | 0 | 1 | 2 => rfl
  | i + 3 => by simp

/-- OVR is bit 2 of INT_STATUS (R27). -/
@[simp] theorem getLsbD_intOvr : ∀ i, intOvr.getLsbD i = decide (i = 2)
  | 0 | 1 | 2 => rfl
  | i + 3 => by simp

/-- A command leaves INT_STATUS as it is or sets ERR (R27, R303). -/
theorem State.Executes.intStatus (h : s.Executes t) :
    t.intStatus = s.intStatus ∨ t.intStatus = s.intStatus ||| intErr := by
  cases h with
  | raises | rejectsFrame | aborts | endsUnfinished => exact .inr rfl
  | _ => exact .inl rfl

/-- A completion sets CMD_DONE and perhaps ERR, and no other flag (R27, R138). -/
theorem State.Executes.lt_two_of_set (h : s.Executes t) {i : Nat} (hs : s.intStatus.getLsbD i = false)
    (ht : t.complete.intStatus.getLsbD i = true) : i < 2 := by
  obtain hsame | herr := h.intStatus
  · simp [hsame, hs] at ht
    omega
  · simp [herr, hs] at ht
    omega

/-- A host operation sets no flag but OVR, by a write that it drops (R27, R311). -/
theorem State.HostMoves.dropped_of_set {op : HostOp} (h : s.HostMoves op t) {i : Nat} (hs : s.intStatus.getLsbD i = false)
    (ht : t.intStatus.getLsbD i = true) :
    i = 2 ∧ s.busy = true ∧ t.busy = true ∧ ∃ o d, op = .write .word o d ∧ (o = 0x040 ∨ 0x400 ≤ o) := by
  cases h with
  | drops o d ho hb => exact ⟨by simpa [hs] using ht, hb, hb, o, d, rfl, ho⟩
  | clears op m => simp [hs] at ht
  | resets d hd ht' => simp [ht'.intStatus] at ht
  | _ => exact absurd (hs.symm.trans ht) nofun

/-- A step that sets a flag is a completion that sets CMD_DONE or ERR, or a dropped write that sets OVR (R27, R311). -/
theorem State.Steps.of_set (h : s.Steps t) {i : Nat} (hs : s.intStatus.getLsbD i = false)
    (ht : t.intStatus.getLsbD i = true) :
    (i < 2 ∧ s.busy = true ∧ t.busy = false ∧ ∀ op rest, s.inputs ≠ .host op :: rest)
      ∨ (i = 2 ∧ s.busy = true ∧ t.busy = true
          ∧ ∃ o d rest, s.inputs = .host (.write .word o d) :: rest ∧ (o = 0x040 ∨ 0x400 ≤ o)) := by
  cases h with
  | idles rest hb => exact absurd (hs.symm.trans ht) nofun
  | completes rest hin hb hu => exact .inl ⟨hu.lt_two_of_set hs ht, hb, rfl, hin⟩
  | host op rest hin hmove =>
    obtain ⟨hi, hb, hb', o, d, rfl, ho⟩ := hmove.dropped_of_set hs ht
    exact .inr ⟨hi, hb, hb', o, d, rest, hin, ho⟩
  | powersOn rest hin hreset => simp [hreset.intStatus] at ht

/-! ## Contexts -/

/-- Advancing a context keeps its state or makes it DONE (R201). -/
theorem Context.advance_state (c : Context) : c.advance.state = c.state ∨ c.advance.state = .done := by
  unfold Context.advance
  simp only
  split
  · exact .inr rfl
  · exact .inl rfl

/-- No context of a sound frame is IDLE (R31, R165). -/
theorem State.HasFrame.state_ne_idle (hf : s.HasFrame) {v : Fin 4} (hv : v.val < s.frame.scan.vbc) :
    (s.context v).state ≠ .idle := by
  obtain ⟨-, -, -, -, hsound⟩ := hf
  have hc := hsound v
  rw [Context.Sound, if_pos hv] at hc
  obtain ⟨-, -, -, -, -, -, hidle⟩ := hc
  exact hidle

/-- A context that passes the checks in a sound frame is RUN (R31, R201). -/
theorem State.Runs.state_eq_run {vb : Fin 4} (hr : s.Runs vb) (hf : s.HasFrame) : (s.context vb).state = .run := by
  have hidle := hf.state_ne_idle (hr.mbIdx_lt hf).1
  obtain ⟨-, -, hfailed, hdone⟩ := hr
  cases hstate : (s.context vb).state with
  | run => rfl
  | idle => exact absurd hstate hidle
  | done => exact absurd hstate hdone
  | failed => exact absurd hstate hfailed

/-- A context whose state differs once a context is set is that one. -/
theorem State.eq_of_context_setContext_ne {v w : Fin 4} {c : Context}
    (h : ((s.setContext w c).context v).state ≠ (s.context v).state) : w = v := by
  by_contra hne
  exact h (congrArg Context.state (State.context_setContext_other hne))

/-- A command that changes a context's state is a FRAME_START, or an MB_DECODE or MB_ABORT on that context (R31). -/
theorem State.Executes.of_context_ne {v : Fin 4} (h : s.Executes t) (hf : s.FrameSound)
    (hne : (t.context v).state ≠ (s.context v).state) :
    decode s.cmdWord = .ok .frameStart
      ∨ (∃ field, decode s.cmdWord = .ok (.mbDecode v field) ∧ (s.context v).state = .run ∧ (t.context v).state = .done)
      ∨ (decode s.cmdWord = .ok (.mbAbort v) ∧ (s.context v).state = .run ∧ (t.context v).state = .failed) := by
  cases h with
  | rejectsFrame hw | latchesFrame hw => exact .inl hw
  | places vb field hw hr ws n hws =>
    obtain rfl : vb = v := State.eq_of_context_setContext_ne (s := { s with mem := _, draws := n }) hne
    have ht : ((({ s with mem := Memory.writeAll s.mem ws, draws := n } : State).setContext vb
        (s.context vb).advance).autoClearCoef.context vb) = (s.context vb).advance := State.context_setContext_same ..
    rw [ht] at hne ⊢
    exact .inr (.inl ⟨field, hw, hr.state_eq_run (hr.hasFrame hf), (s.context vb).advance_state.resolve_left hne⟩)
  | aborts vb hw hr =>
    obtain rfl : vb = v := State.eq_of_context_setContext_ne hne
    exact .inr (.inr ⟨hw, hr.state_eq_run (hr.hasFrame hf), congrArg Context.state (s.context_setContext_same vb _)⟩)
  | _ => exact absurd rfl hne

/-- A reset makes every context IDLE (R31, R52). -/
theorem State.Resets.context_state (h : s.Resets t) (v : Fin 4) : (t.context v).state = .idle := by
  obtain ⟨-, -, -, hctx⟩ := h.noGeometry
  rw [hctx v]
  rfl

/-! ## The error record -/

/-- A command that changes the error record sets ERR, or is a FRAME_START (R302, R303). -/
theorem State.Executes.of_errorRecord_ne (h : s.Executes t)
    (hne : (t.errCode, t.errVb, t.errMb) ≠ (s.errCode, s.errVb, s.errMb)) :
    t.intStatus.getLsbD 1 = true ∨ decode s.cmdWord = .ok .frameStart := by
  cases h with
  | raises | aborts | endsUnfinished => exact .inl (by simp)
  | rejectsFrame hw | latchesFrame hw => exact .inr hw
  | nothing | places | endsFrame => exact absurd rfl hne

/-- A host operation keeps the contexts and the error record, or it is a soft reset (R31, R302, R341). -/
theorem State.HostMoves.reset_or_kept {op : HostOp} (h : s.HostMoves op t) :
    (∃ d, op = .write .word 0x004 d ∧ d.getLsbD 0 = true ∧ s.Resets t)
      ∨ (t.ctx = s.ctx ∧ (t.errCode, t.errVb, t.errMb) = (s.errCode, s.errVb, s.errMb)) := by
  cases h with
  | resets d hd ht => exact .inl ⟨d, rfl, hd, ht⟩
  | _ => exact .inr ⟨rfl, rfl⟩

/-! ## Memory -/

/-- With an MB_DECODE in flight that passes its checks, the bytes to come are those it writes (R85). -/
theorem State.pendingWrites_of_mbDecode {vb : Fin 4} {field : Bool} (hb : s.busy = true)
    (hw : decode s.cmdWord = .ok (.mbDecode vb field)) (hr : s.Runs vb) :
    s.pendingWrites = s.mbWritesWith Config.idct vb field := by
  simp [State.pendingWrites, hb, hw, State.ctxError?_eq_none.2 hr]

/-- Bytes to come belong to a command in flight. -/
theorem State.busy_of_mem_pendingWrites {w : ByteAt} (h : w ∈ s.pendingWrites) : s.busy = true := by
  by_contra hb
  simp [State.pendingWrites, hb] at h

/-- A byte that a list of writes changes is one of them. -/
theorem Memory.mem_of_read_writeAll_ne {m : List Host.Cell} {ws : List ByteAt} {a : Nat}
    (h : Memory.read (Memory.writeAll m ws) a ≠ Memory.read m a) :
    ∃ v, (a, v) ∈ ws ∧ Memory.read (Memory.writeAll m ws) a = some v :=
  (Memory.read_writeAll_cases m ws a).resolve_left h

/-- A command in flight changes a byte only to what it was to write there (R83). -/
theorem State.Executes.of_read_ne {a : Nat} (h : s.Executes t) (hb : s.busy = true)
    (hne : Memory.read t.mem a ≠ Memory.read s.mem a) : ∃ v, (a, v) ∈ s.pendingWrites ∧ Memory.read t.mem a = some v := by
  cases h with
  | places vb field hw hr ws n hws =>
    obtain ⟨v, hv, hread⟩ := Memory.mem_of_read_writeAll_ne hne
    exact ⟨v, s.pendingWrites_of_mbDecode hb hw hr ▸ (hws _ hv).1, hread⟩
  | _ => exact absurd rfl hne

/-- A reset changes a byte only to what the aborted command was to write there (R342, R343). -/
theorem State.Resets.of_read_ne {a : Nat} (h : s.Resets t) (hne : Memory.read t.mem a ≠ Memory.read s.mem a) :
    ∃ v, (a, v) ∈ s.pendingWrites ∧ s.busy = true ∧ t.busy = false ∧ Memory.read t.mem a = some v := by
  obtain ⟨_, k, ⟨ws, n, hws, rfl⟩, rfl⟩ := h
  obtain ⟨v, hv, hread⟩ := Memory.mem_of_read_writeAll_ne hne
  have hpending := (hws _ hv).1
  exact ⟨v, hpending, State.busy_of_mem_pendingWrites hpending, rfl, hread⟩

/-- A host operation that changes a byte is a soft reset or a store to it (R70, R85). -/
theorem State.HostMoves.of_read_ne {op : HostOp} {a : Nat} (h : s.HostMoves op t)
    (hne : Memory.read t.mem a ≠ Memory.read s.mem a) :
    s.Resets t ∨ ∃ b v, op = .store b v ∧ b.toNat = a ∧ Memory.read t.mem a = some v := by
  cases h with
  | resets d hd ht => exact .inl ht
  | stores b v hm =>
    have hba : b.toNat = a := by
      by_contra hba
      exact hne (Memory.read_write_other hba)
    exact .inr ⟨b, v, rfl, hba, hba ▸ Memory.read_write_same ..⟩
  | _ => exact absurd rfl hne

end

end Sys2Proof.Machine
end

section
/-! The obligations on what a step may change (10_state.md, 20_memory.md, 60_exceptions.md). -/

namespace Sys2Proof.Machine

/-- Settles O16: a step that sets a flag is a completion, for CMD_DONE and ERR, or a dropped write, for OVR. -/
theorem eventFlagsHaveTheirOwnSteps : Obligations.EventFlagsHaveTheirOwnSteps := by
  unfold Obligations.EventFlagsHaveTheirOwnSteps
  intro s t h
  have hstep := State.steps_of_step h
  refine ⟨fun hs ht => ?cmdDone, fun hs ht => ?ovr⟩
  case cmdDone =>
    obtain ⟨-, hcompletion⟩ | ⟨hi, -⟩ := hstep.of_set hs ht
    · exact hcompletion
    · exact nomatch hi
  case ovr =>
    obtain ⟨hi, -⟩ | ⟨-, hdropped⟩ := hstep.of_set hs ht
    · exact absurd hi (Nat.lt_irrefl 2)
    · exact hdropped

/-- Settles O18: of all that a step can do, these change a context. -/
theorem contextStateTransitions : Obligations.ContextStateTransitions := by
  unfold Obligations.ContextStateTransitions
  intro s t v hs h hne
  cases State.steps_of_step h with
  | idles rest hb => exact absurd rfl hne
  | completes rest hin hb hu => exact .inl ⟨hb, rfl, hu.of_context_ne hs.frame hne⟩
  | host op rest hin ht =>
    obtain ⟨d, rfl, hd, hreset⟩ | ⟨hctx, -⟩ := ht.reset_or_kept
    · exact .inr (.inl ⟨⟨d, rest, hin, hd⟩, hreset.context_state v⟩)
    · exact absurd (by rw [State.context, hctx]; rfl) hne
  | powersOn rest hin ht => exact .inr (.inr ⟨⟨rest, hin⟩, ht.context_state v⟩)

/-- Settles O50: of all that a step can do, these change the error record. -/
theorem errorRecordChangesOnlyAtCompletion : Obligations.ErrorRecordChangesOnlyAtCompletion := by
  unfold Obligations.ErrorRecordChangesOnlyAtCompletion
  intro s t h hne
  cases State.steps_of_step h with
  | idles rest hb => exact absurd rfl hne
  | completes rest hin hb hu =>
    refine .inl ⟨hb, rfl, by simp, (hu.of_errorRecord_ne hne).imp_left fun herr => ?_⟩
    simp [herr]
  | host op rest hin ht =>
    obtain ⟨d, rfl, hd, hreset⟩ | ⟨-, hkept⟩ := ht.reset_or_kept
    · exact .inr ⟨.inl ⟨d, rest, hin, hd⟩, hreset.errorRecord⟩
    · exact absurd hkept hne
  | powersOn rest hin ht => exact .inr ⟨.inr ⟨rest, hin⟩, ht.errorRecord⟩

/-- Settles O56: of all that a step can do, these change a byte. -/
theorem onlyMbDecodeAndStoresChangeMemory : Obligations.OnlyMbDecodeAndStoresChangeMemory := by
  unfold Obligations.OnlyMbDecodeAndStoresChangeMemory
  intro s t a h hne
  cases State.steps_of_step h with
  | idles rest hb => exact absurd rfl hne
  | completes rest hin hb hu =>
    obtain ⟨v, hv, hread⟩ := hu.of_read_ne hb hne
    exact .inl ⟨v, hv, hb, rfl, hread⟩
  | host op rest hin ht =>
    obtain hreset | ⟨b, v, rfl, hba, hread⟩ := ht.of_read_ne hne
    · exact .inl (hreset.of_read_ne hne)
    · exact .inr ⟨b, v, rest, hin, hba, hread⟩
  | powersOn rest hin ht => exact .inl (ht.of_read_ne hne)

end Sys2Proof.Machine
end

section
/-! SUPPORT. FRAME_START by the two checks (R160 to R164), and that what it latches fits the registers (R38 to R45, R165). -/

namespace Sys2Proof.Machine

/-! ## The checks -/

/-- GeometryOK is what R162 lists. -/
theorem geometryOk_iff_geometryHolds (c : FrameConfig) :
    geometryOk c.width.toNat c.height.toNat = true ↔ c.GeometryHolds := by
  have himp : c.height.toNat % 16 ≠ 8 ∨ c.width.toNat % 32 = 0 ↔ (c.height.toNat % 16 = 8 → c.width.toNat % 32 = 0) :=
    imp_iff_not_or.symm
  simp only [geometryOk, FrameConfig.GeometryHolds, Bool.and_eq_true, Bool.or_eq_true, decide_eq_true_eq, himp, and_assoc]

/-- ResourceOK is what R161 lists. -/
theorem resourceOk_iff_resourceHolds (c : FrameConfig) :
    resourceOk c.width.toNat c.height.toNat c.fmt c.destBase.toNat c.destStride.toNat c.destSize.toNat = true
      ↔ c.ResourceHolds := by
  have hbpp : c.fmt.bpp = if c.fmt = .xrgb then 4 else 2 := by cases c.fmt <;> rfl
  simp only [resourceOk, FrameConfig.ResourceHolds, hbpp, Bool.and_eq_true, decide_eq_true_eq, and_assoc]

section
variable {s : State}

/-- FRAME_START latches a frame that passes both checks (R160). -/
theorem execFrameStart_of_checks (hg : s.cmdCfg.GeometryHolds) (hr : s.cmdCfg.ResourceHolds) :
    execFrameStart s = .next (s.clearError.enterNoGeometry.latchFrame s.cmdCfg) := by
  simp only [execFrameStart, (geometryOk_iff_geometryHolds _).2 hg, (resourceOk_iff_resourceHolds _).2 hr, Bool.true_eq_false,
    if_false]

/-- FRAME_START with impossible dimensions raises GEOMETRY (R162, R163). -/
theorem execFrameStart_of_not_geometry (hg : ¬ s.cmdCfg.GeometryHolds) :
    execFrameStart s = .next (s.clearError.enterNoGeometry.recordError .geometry 0 0) := by
  rw [← geometryOk_iff_geometryHolds, Bool.not_eq_true] at hg
  simp only [execFrameStart, hg, if_true, State.raise]

/-- FRAME_START with too little buffer raises RESOURCE (R161, R164). -/
theorem execFrameStart_of_not_resource (hg : s.cmdCfg.GeometryHolds) (hr : ¬ s.cmdCfg.ResourceHolds) :
    execFrameStart s = .next (s.clearError.enterNoGeometry.recordError .resource 0 0) := by
  rw [← resourceOk_iff_resourceHolds, Bool.not_eq_true] at hr
  simp only [execFrameStart, (geometryOk_iff_geometryHolds _).2 hg, hr, Bool.true_eq_false, if_false, if_true, State.raise]

/-- A failed check leaves no frame geometry (R51, R163). -/
theorem State.noGeometry_of_failedCheck (s : State) (code : ErrCode) :
    (s.clearError.enterNoGeometry.recordError code 0 0).NoGeometry :=
  ⟨rfl, rfl, rfl, fun v => State.context_unused _ v rfl⟩

end

/-! ## What is latched fits its registers -/

section
variable {w h : Nat} (hw : w < 2 ^ 16) (hh : h < 2 ^ 16) (hg : geometryOk w h = true) (sc : Scan)
include hw hh hg

/-- The start of a padding run fits CTX_PADPOS, even of an empty run at the very end (R40, R173). -/
theorem padGrid_lt {p : Nat} (hp : p ≤ padRunStart w h sc sc.vbc) :
    (padGrid (arrangement w h sc) p).1 < 2 ^ 16 ∧ (padGrid (arrangement w h sc) p).2 < 2 ^ 16 := by
  obtain ⟨-, -, -, hend, -, hps⟩ := blockCount_facts hg sc
  have hper : 0 < w / 16 := by obtain ⟨p, q, e, rfl, -, hp, -⟩ := geometryOk_shape hg; omega
  have hstrip : stripCount w h ≤ w / 32 := by unfold stripCount; split <;> omega
  by_cases hfull : p < (h / 16 - padStartRow h sc) * (w / 16)
  · have hgrid : padGrid (arrangement w h sc) p = (p % (w / 16), padStartRow h sc + p / (w / 16)) := if_pos hfull
    have hcol : p % (w / 16) < w / 16 := Nat.mod_lt _ hper
    have hrow : p / (w / 16) < h / 16 - padStartRow h sc := (Nat.div_lt_iff_lt_mul hper).2 hfull
    rw [hgrid]
    exact ⟨by simp only; omega, by simp only; omega⟩
  · have hgrid : padGrid (arrangement w h sc) p = (p - (h / 16 - padStartRow h sc) * (w / 16), h / 16) := if_neg hfull
    rw [hgrid]
    exact ⟨by simp only; omega, by simp only; omega⟩

/-- The sizes of the arrangement fit the GEOM registers (R41 to R44). -/
theorem arrangement_fits :
    (arrangement w h sc).vbc < 2 ^ 3 ∧ (arrangement w h sc).per < 2 ^ 32 ∧ (arrangement w h sc).total < 2 ^ 32
      ∧ (arrangement w h sc).ps < 2 ^ 32 := by
  obtain ⟨-, -, -, -, -, hps⟩ := blockCount_facts hg sc
  have htotal : w * h < 2 ^ 16 * 2 ^ 16 := Nat.mul_lt_mul'' hw hh
  have hvbc := sc.vbc_le_four
  simp only [arrangement, mbTotal]
  omega

/-- The context registers of a video block of the frame show its count and the start of its padding run (R39, R40, R165). -/
theorem initContext_of_lt {v : Fin 4} (hv : v.val < sc.vbc) :
    (initContext w h sc v).mbCount.toNat = blockCount w h sc v.val
      ∧ (initContext w h sc v).state = (if blockCount w h sc v.val = 0 then .done else .run)
      ∧ (initContext w h sc v).padPos.toNat
          = (padGrid (arrangement w h sc) (arrangement w h sc).p[v.val]).2 * 65536
            + (padGrid (arrangement w h sc) (arrangement w h sc).p[v.val]).1 := by
  obtain ⟨hx, hy⟩ := padGrid_lt hw hh hg sc (padRunStart_mono w h sc hv.le)
  have hcount := blockCount_lt hw hh sc v.val
  rw [arrangement_p w h sc v hv, initContext, if_pos hv]
  refine ⟨Nat.mod_eq_of_lt hcount, rfl, ?_⟩
  simp only [Context.padPos, BitVec.toNat_append, BitVec.toNat_ofNat, Nat.mod_eq_of_lt hx, Nat.mod_eq_of_lt hy]
  rw [← Nat.shiftLeft_add_eq_or_of_lt hx, Nat.shiftLeft_eq]

end

/-- CTX_MBIDX is 0 after FRAME_START (R165). -/
theorem initContext_mbIdx (w h : Nat) (sc : Scan) (v : Fin 4) : (initContext w h sc v).mbIdx = 0 := by
  unfold initContext
  split <;> rfl

/-- A context that the frame does not have is unused (R51, R165). -/
theorem initContext_of_le {w h : Nat} {sc : Scan} {v : Fin 4} (hv : sc.vbc ≤ v.val) : initContext w h sc v = .unused :=
  if_neg (Nat.not_lt.2 hv)

/-- GEOM_VBC reads the number of video blocks (R41). -/
theorem Geom.vbcWord_toNat {g : Geom} (h : g.vbc < 2 ^ 3) : g.vbcWord.toNat = g.vbc := by
  simp only [Geom.vbcWord, BitVec.toNat_append, BitVec.toNat_ofNat, Nat.mod_eq_of_lt h, Nat.zero_mod, Nat.zero_shiftLeft,
    Nat.zero_or]

/-! ## The last video block and the strip -/

/-- The frame ends in a strip exactly when its height is not a multiple of 16 (R171). -/
theorem arrangement_strip_iff {w h : Nat} (hg : geometryOk w h = true) (sc : Scan) :
    (arrangement w h sc).strip = true ↔ h % 16 = 8 := by
  obtain ⟨p, q, e, -, rfl, -, he, -, -⟩ := geometryOk_shape hg
  simp only [arrangement, decide_eq_true_eq]
  omega

/-- PS is less than VBC rows above H16 (R171). -/
theorem h16_sub_padStartRow_lt (h : Nat) (sc : Scan) : h / 16 - padStartRow h sc < sc.vbc := by
  cases sc <;> simp only [padStartRow, Scan.vbc] <;> omega

/-- A macroblock of an earlier video block than the last is a full one when the padding runs before the last end among the full
padding rows (R173, R174). -/
theorem mbPos_kind_of_runs_in_full {w h : Nat} (hg : geometryOk w h = true) {sc : Scan} {v : Fin 4} {i n : Nat}
    (hn : padRunStart w h sc n ≤ (h / 16 - padStartRow h sc) * (w / 16)) (hvn : v.val < n) (hv : v.val < sc.vbc)
    (hi : i < blockCount w h sc v.val) : (mbPos (arrangement w h sc) v i).kind = .std16 := by
  obtain ⟨-, hpos, -⟩ | ⟨-, p, -, hend, -, ⟨-, hpos, -⟩ | ⟨hpad, -, -⟩⟩ := mbPos_cases hg sc hv hi
  · rw [hpos]
  · rw [hpos]
  · have hmono : padRunStart w h sc (v.val + 1) ≤ padRunStart w h sc n := padRunStart_mono w h sc hvn
    omega

/-- When the padding runs of the first `n` video blocks reach into the strip, one of them holds a strip macroblock (R173,
R174). -/
theorem exists_strip_of_runs_past_full {w h : Nat} {sc : Scan} {n : Nat} (hn : n ≤ sc.vbc)
    (hpast : (h / 16 - padStartRow h sc) * (w / 16) < padRunStart w h sc n) :
    ∃ (v : Fin 4) (i : Nat), v.val < n ∧ i < blockCount w h sc v.val ∧ (mbPos (arrangement w h sc) v i).kind = .strip := by
  obtain ⟨v, hv, hstart, hend⟩ := exists_padRun hpast
  rw [padRunStart_succ] at hend
  have hv4 : v < 4 := (hv.trans_le hn).trans_le sc.vbc_le_four
  generalize hi : normalCount w h sc + ((h / 16 - padStartRow h sc) * (w / 16) - padRunStart w h sc v) = i
  refine ⟨⟨v, hv4⟩, i, hv, by simp only; omega, ?_⟩
  have hnormal : ¬ i < (arrangement w h sc).normal := by simp only [arrangement]; omega
  have hp : (arrangement w h sc).p[v] + (i - (arrangement w h sc).normal) = (h / 16 - padStartRow h sc) * (w / 16) := by
    rw [arrangement_p w h sc ⟨v, hv4⟩ (hv.trans_le hn)]
    simp only [arrangement]
    omega
  rw [mbPos_strip (v := ⟨v, hv4⟩) hnormal hp (Nat.lt_irrefl _)]

end Sys2Proof.Machine
end

section
/-! The obligations on FRAME_START and the strip (41_arrangement.md). -/

namespace Sys2Proof.Machine

/-- Settles O20: the arrangement and its contexts fit the registers that show them. -/
theorem frameStartInitialisesTheContexts : Obligations.FrameStartInitialisesTheContexts := by
  unfold Obligations.FrameStartInitialisesTheContexts
  intro s t v hg hr h w height g
  obtain rfl := Host.Outcome.next.inj ((execFrameStart_of_checks hg hr).symm.trans h)
  have hw : w < 2 ^ 16 := s.cmdCfg.width.isLt
  have hh : height < 2 ^ 16 := s.cmdCfg.height.isLt
  have hok : geometryOk w height = true := (geometryOk_iff_geometryHolds _).2 hg
  obtain ⟨hvbc, hper, htotal, hps⟩ := arrangement_fits hw hh hok s.cmdCfg.scan
  simp only [readReg, State.context_latchFrame, State.latchFrame_geom]
  refine ⟨Geom.vbcWord_toNat hvbc, Nat.mod_eq_of_lt hper, Nat.mod_eq_of_lt htotal, Nat.mod_eq_of_lt hps, rfl,
    by rw [initContext_mbIdx]; rfl, fun hv => initContext_of_lt hw hh hok _ hv, fun hv => ?_⟩
  rw [initContext_of_le hv]
  exact ⟨rfl, rfl, rfl⟩

/-- Settles O23: the two roundings of the height by the scan mode. -/
theorem paddingStartsAtAMultipleOfTheBlockCount : Obligations.PaddingStartsAtAMultipleOfTheBlockCount := by
  unfold Obligations.PaddingStartsAtAMultipleOfTheBlockCount
  intro w h scan hg g
  obtain ⟨-, -, -, -, -, hps⟩ := blockCount_facts hg scan
  exact ⟨rfl, arrangement_strip_iff hg scan, rfl, Nat.dvd_mul_left .., hps, h16_sub_padStartRow_lt h scan⟩

/-- Settles O26: the padding runs before the last video block's end among the full padding rows exactly when the rest, which
ends with the strip, is as long as the strip. -/
theorem lastBlockHoldsTheStripIffItsRunCoversIt : Obligations.LastBlockHoldsTheStripIffItsRunCoversIt := by
  unfold Obligations.LastBlockHoldsTheStripIffItsRunCoversIt
  intro w h scan hg
  obtain ⟨-, -, -, hend, -, -⟩ := blockCount_facts hg scan
  have hvbc : scan.vbc - 1 + 1 = scan.vbc := by cases scan <;> rfl
  have hlast := padRunStart_succ w h scan (scan.vbc - 1)
  rw [hvbc] at hlast
  have hcovers : stripCount w h ≤ blockCount w h scan (scan.vbc - 1) - normalCount w h scan
      ↔ padRunStart w h scan (scan.vbc - 1) ≤ (h / 16 - padStartRow h scan) * (w / 16) := by omega
  rw [hcovers]
  refine ⟨fun hall => ?_, fun hfull v i hv hi => mbPos_kind_of_runs_in_full hg hfull (by omega) (by omega) hi⟩
  by_contra hpast
  obtain ⟨v, i, hv, hi, hstrip⟩ := exists_strip_of_runs_past_full (Nat.sub_le ..) (Nat.not_le.1 hpast)
  exact nomatch hstrip.symm.trans (hall v i (by omega) hi)

/-- Settles O19: an accepted write of CMD remembers the configuration, and FRAME_START latches a frame that passes its
checks. -/
theorem frameStartLatchesTheFrame : Obligations.FrameStartLatchesTheFrame := by
  unfold Obligations.FrameStartLatchesTheFrame
  refine ⟨fun s d rest hin hidle => ?accept, fun s hg hr => execFrameStart_of_checks (s := s.accept _) hg hr⟩
  case accept =>
    refine ⟨(s.withInputs rest).accept d, ?_, rfl, rfl⟩
    rw [step_of_write .cmd hin, writeReg, writeCmd_of_idle (show (s.withInputs rest).busy = false from hidle)]

/-- Settles O21: either failed check enters "no frame geometry" with a cleared record and then records its error. -/
theorem failedFrameStartLeavesNoGeometry : Obligations.FailedFrameStartLeavesNoGeometry := by
  unfold Obligations.FailedFrameStartLeavesNoGeometry
  intro s
  exact ⟨fun hg => ⟨_, execFrameStart_of_not_geometry hg, s.noGeometry_of_failedCheck .geometry, rfl, rfl, rfl, rfl⟩,
    fun hg hr => ⟨_, execFrameStart_of_not_resource hg hr, s.noGeometry_of_failedCheck .resource, rfl, rfl, rfl, rfl⟩⟩

end Sys2Proof.Machine
end

section
/-! SUPPORT. The checks of a macroblock command one by one (R202, R263), and how an MB_DECODE that passes them ends (R54, R72,
R85, R201). -/

namespace Sys2Proof.Machine

section
variable {s : State} {vb : Fin 4}

/-! ## The checks in their order -/

/-- With no frame active a macroblock command finds NO_FRAME (R202). -/
theorem State.ctxError?_noFrame (hf : s.fActive = false) : s.ctxError? vb = some ⟨.noFrame, 0, 0⟩ := by
  simp [State.ctxError?, hf]

/-- In an active frame, a context beyond the frame's video blocks is VB_RANGE (R202). -/
theorem State.ctxError?_vbRange (hf : s.fActive = true) (hv : s.geom.vbc ≤ vb.val) :
    s.ctxError? vb = some ⟨.vbRange, BitVec.ofNat 2 vb.val, 0⟩ := by
  simp [State.ctxError?, hf, hv]

/-- In an active frame, a FAILED context of it is VB_FAILED (R202). -/
theorem State.ctxError?_vbFailed (hf : s.fActive = true) (hv : vb.val < s.geom.vbc) (hc : (s.context vb).state = .failed) :
    s.ctxError? vb = some ⟨.vbFailed, BitVec.ofNat 2 vb.val, (s.context vb).mbIdx⟩ := by
  simp [State.ctxError?, hf, Nat.not_le.2 hv, hc]

/-- In an active frame, a DONE context of it is VB_DONE (R202). -/
theorem State.ctxError?_vbDone (hf : s.fActive = true) (hv : vb.val < s.geom.vbc) (hc : (s.context vb).state = .done) :
    s.ctxError? vb = some ⟨.vbDone, BitVec.ofNat 2 vb.val, (s.context vb).mbIdx⟩ := by
  simp [State.ctxError?, hf, Nat.not_le.2 hv, hc]

/-- A macroblock command records the error that its checks find, and nothing else happens (R202, R263). -/
theorem exec_of_ctxError {i : Instr} {e : CtxError} (hi : contextOf i = some vb) (he : s.ctxError? vb = some e) :
    exec i s = .next (s.recordError e.code e.vb e.mb) := by
  cases i with
  | mbDecode v field => cases hi; simp only [exec, execMbDecode, execMbDecodeWith, he, State.raise]
  | mbAbort v => cases hi; simp only [exec, execMbAbort, he, State.raise]
  | nop | frameStart | frameEnd => cases hi

/-! ## An MB_DECODE that passes its checks -/

variable {idct : Idct} {field : Bool}

/-- An MB_DECODE that passes its checks and would read an unwritten coefficient stops (R54, R310). -/
theorem execMbDecodeWith_of_unwritten (hr : s.Runs vb) (hc : ¬ s.CoefWritten) :
    execMbDecodeWith idct vb field s = .fault .unwrittenCoefficient := by
  have hready : s.coefReady = false := by rwa [← Bool.not_eq_true, State.coefReady_iff]
  simp only [execMbDecodeWith, State.ctxError?_eq_none.2 hr, hready, if_true]

/-- An MB_DECODE that passes its checks, with every coefficient written, puts its bytes and then advances its context (R201). -/
theorem execMbDecodeWith_of_written (hr : s.Runs vb) (hc : s.CoefWritten) :
    execMbDecodeWith idct vb field s = (s.putCommand (s.mbWritesWith idct vb field)).onNext fun t =>
      .next (t.setContext vb (t.context vb).advance).autoClearCoef := by
  simp only [execMbDecodeWith, State.ctxError?_eq_none.2 hr, State.coefReady_iff.2 hc, Bool.true_eq_false, if_false]

/-- An MB_DECODE that passes its checks completes when every byte that lands is backed, the host's races included (R85,
R201). -/
theorem execMbDecodeWith_lands (hr : s.Runs vb) (hc : s.CoefWritten) (hb : s.Backed idct vb field) :
    ∃ n, execMbDecodeWith idct vb field s = .next (({ s with
      mem := Memory.writeAll s.mem (s.landing (s.mbWritesWith idct vb field))
      draws := s.draws + n } : State).setContext vb (s.context vb).advance).autoClearCoef := by
  rw [execMbDecodeWith_of_written hr hc, State.putCommand, State.putBytes_of_memory _ fun w hw => hb w (State.landing_subset hw)]
  exact ⟨_, rfl⟩

/-- An MB_DECODE that passes its checks stops at a byte that is not ordinary memory (R72, R310). -/
theorem execMbDecodeWith_of_unbacked {w : ByteAt} (hr : s.Runs vb) (hc : s.CoefWritten)
    (hw : w ∈ s.landing (s.mbWritesWith idct vb field)) (hm : s.isMemory w.1 = false) :
    ∃ a, s.isMemory a = false ∧ execMbDecodeWith idct vb field s = .fault (.destNotMemory a) := by
  rw [execMbDecodeWith_of_written hr hc, State.putCommand]
  obtain ⟨hall, -⟩ | ⟨w', -, hm', hput⟩ := s.putBytes_cases (s.landing (s.mbWritesWith idct vb field)) _
  · exact absurd (hall w hw) (by simp [hm])
  · exact ⟨w'.1, hm', by rw [hput]; rfl⟩

/-! ## Which writes land -/

/-- The writes that land are a part of the writes, in their order (R85). -/
theorem State.landing_sublist (s : State) (ws : List ByteAt) : (s.landing ws).Sublist ws := by
  unfold State.landing
  split
  · exact List.Sublist.refl ws
  · conv_rhs => rw [← List.zipIdx_map_fst 0 ws]
    exact List.filter_sublist.map Prod.fst

/-- A write to a byte that the host did not race for lands (R85). -/
theorem State.mem_landing_of_not_raced {ws : List ByteAt} {w : ByteAt} (hw : w ∈ ws) (hraced : w.1 ∉ s.raced) :
    w ∈ s.landing ws := by
  unfold State.landing
  split
  · exact hw
  · rw [← List.zipIdx_map_fst 0 ws] at hw
    obtain ⟨p, hp, rfl⟩ := List.mem_map.1 hw
    exact List.mem_map.2 ⟨p, List.mem_filter.2 ⟨hp, by simp [hraced]⟩, rfl⟩

end

end Sys2Proof.Machine
end

section
/-! SUPPORT. An MB_DECODE writes each byte of the pixels it covers once (R84, R212, R245): its addresses are a permutation of
those bytes. -/

namespace Sys2Proof.Machine

/-- The addresses of the bytes of the pixels that a macroblock covers (R174, R212, R245). -/
def MbPlace.byteAddrs (m : MbPlace) (f : Latched) : List Nat :=
  (List.range m.kind.width ×ˢ List.range m.kind.height ×ˢ List.range f.fmt.bpp).map fun q =>
    lineAddr f (m.y0 + q.2.1) + f.fmt.bpp * (m.x0 + q.1) + q.2.2

/-- The bytes of the pixels of a macroblock, one by one. -/
theorem MbPlace.mem_byteAddrs {m : MbPlace} {f : Latched} {a : Nat} :
    a ∈ m.byteAddrs f ↔ ∃ dx dy b, dx < m.kind.width ∧ dy < m.kind.height ∧ b < f.fmt.bpp
      ∧ lineAddr f (m.y0 + dy) + f.fmt.bpp * (m.x0 + dx) + b = a := by
  simp only [MbPlace.byteAddrs, List.mem_map, List.mem_product, List.mem_range, Prod.exists, and_assoc]

/-- A macroblock has 256 pixels (R174). -/
theorem MbPlace.length_byteAddrs (m : MbPlace) (f : Latched) : (m.byteAddrs f).length = 256 * f.fmt.bpp := by
  have hpixels : m.kind.width * m.kind.height = 256 := by cases m.kind <;> rfl
  simp only [MbPlace.byteAddrs, List.length_map, List.length_product, List.length_range, ← Nat.mul_assoc, hpixels]

/-- Different bytes of the pixels of a macroblock inside the frame's lines have different addresses (R161). -/
theorem MbPlace.nodup_byteAddrs {m : MbPlace} {f : Latched} (hline : f.w.toNat * f.fmt.bpp ≤ f.stride.toNat)
    (hm : m.x0 + m.kind.width ≤ f.w.toNat) : (m.byteAddrs f).Nodup := by
  refine List.Nodup.map_on ?_ (List.nodup_range.product (List.nodup_range.product List.nodup_range))
  rintro ⟨dx, dy, b⟩ hq ⟨dx', dy', b'⟩ hq' haddr
  simp only [List.mem_product, List.mem_range] at hq hq' haddr
  obtain ⟨hdx, -, hb⟩ := hq
  obtain ⟨hdx', -, hb'⟩ := hq'
  obtain ⟨hx, hy⟩ := pixel_of_address hline (by omega) hb (by omega) hb' haddr
  obtain rfl : dx = dx' := by omega
  obtain rfl : dy = dy' := by omega
  obtain rfl : b = b' := by omega
  rfl

section
variable (f : Latched) (reg : Regime) (x0 y0 : Nat) (smp : Samples)

/-- A macroblock has 1024 bytes in XRGB: four for each of 256 pixels (R245). -/
theorem length_xrgbWrites : (xrgbWrites f reg x0 y0 smp).length = 1024 := by
  cases reg <;> simp [xrgbWrites, List.length_flatMap, Regime.width, Regime.height]

variable {f reg x0 y0}

/-- WriteYUV422 writes both bytes of every pixel of the macroblock (R212). -/
theorem exists_yuvWrite (hx0 : x0 % 2 = 0) {dx dy b : Nat} (hx : dx < reg.width) (hy : dy < reg.height) (hb : b < 2) :
    ∃ v, (lineAddr f (y0 + dy) + 2 * (x0 + dx) + b, v) ∈ yuvWrites f reg x0 y0 smp := by
  obtain rfl | rfl : b = 0 ∨ b = 1 := by omega
  · exact ⟨_, List.mem_append_left _ (luma_mem_lumaWrites f x0 y0 smp hx hy)⟩
  · obtain ⟨hcb, hcr⟩ := chroma_mem_chromaWrites (dxc := dx / 2) f x0 y0 smp (by omega) hy
    obtain heven | hodd := Nat.mod_two_eq_zero_or_one dx
    · have haddr : lineAddr f (y0 + dy) + 4 * (x0 / 2 + dx / 2) + 1 = lineAddr f (y0 + dy) + 2 * (x0 + dx) + 1 := by omega
      exact ⟨_, List.mem_append_right _ (haddr ▸ hcb)⟩
    · have haddr : lineAddr f (y0 + dy) + 4 * (x0 / 2 + dx / 2) + 3 = lineAddr f (y0 + dy) + 2 * (x0 + dx) + 1 := by omega
      exact ⟨_, List.mem_append_right _ (haddr ▸ hcr)⟩

/-- WriteXRGB writes the four bytes of every pixel of the macroblock (R245). -/
theorem exists_xrgbWrite {dx dy b : Nat} (hx : dx < reg.width) (hy : dy < reg.height) (hb : b < 4) :
    ∃ v, (lineAddr f (y0 + dy) + 4 * (x0 + dx) + b, v) ∈ xrgbWrites f reg x0 y0 smp := by
  match b, hb with
  | 0, _ => exact ⟨_, mem_xrgbWrites.2 ⟨dx, dy, hx, hy, .inl rfl⟩⟩
  | 1, _ => exact ⟨_, mem_xrgbWrites.2 ⟨dx, dy, hx, hy, .inr (.inl rfl)⟩⟩
  | 2, _ => exact ⟨_, mem_xrgbWrites.2 ⟨dx, dy, hx, hy, .inr (.inr (.inl rfl))⟩⟩
  | 3, _ => exact ⟨_, mem_xrgbWrites.2 ⟨dx, dy, hx, hy, .inr (.inr (.inr rfl))⟩⟩

end

section
variable (s : State) (idct : Idct) (vb : Fin 4) (field : Bool)

/-- An MB_DECODE writes as many bytes as its macroblock's pixels have (R212, R245). -/
theorem State.length_mbWritesWith : (s.mbWritesWith idct vb field).length = 256 * s.frame.fmt.bpp := by
  simp only [State.mbWritesWith]
  cases hfmt : s.frame.fmt with
  | yuv422 => exact length_yuvWrites ..
  | xrgb => exact length_xrgbWrites ..

/-- An MB_DECODE writes every byte of the pixels of its macroblock (R212, R245). -/
theorem State.byteAddrs_subset_mbWritesWith :
    (mbPos s.geom vb (s.context vb).mbIdx.toNat).byteAddrs s.frame ⊆ (s.mbWritesWith idct vb field).map Prod.fst := by
  intro a ha
  obtain ⟨dx, dy, b, hx, hy, hb, rfl⟩ := MbPlace.mem_byteAddrs.1 ha
  have heven := mbPos_x0_even s.geom vb (s.context vb).mbIdx.toNat
  simp only [State.mbWritesWith]
  generalize mbPos s.geom vb (s.context vb).mbIdx.toNat = m at hx hy heven ⊢
  obtain ⟨hwidth, hheight⟩ := regimeOf_dims m.kind s.frame.scan field
  rw [← hwidth] at hx
  rw [← hheight] at hy
  cases hfmt : s.frame.fmt with
  | yuv422 =>
    rw [hfmt] at hb
    obtain ⟨v, hv⟩ := exists_yuvWrite (f := s.frame) (y0 := m.y0) (samplesOf idct s.coefInt) heven hx hy hb
    exact List.mem_map.2 ⟨_, hv, rfl⟩
  | xrgb =>
    rw [hfmt] at hb
    obtain ⟨v, hv⟩ := exists_xrgbWrite (f := s.frame) (x0 := m.x0) (y0 := m.y0) (samplesOf idct s.coefInt) hx hy hb
    exact List.mem_map.2 ⟨_, hv, rfl⟩

variable {s vb}

/-- An MB_DECODE of a latched frame writes no byte twice: it writes as many bytes as its pixels have, and all of those
(R84). -/
theorem State.nodup_mbWritesWith (hf : s.HasFrame) (hr : s.Runs vb) : ((s.mbWritesWith idct vb field).map Prod.fst).Nodup := by
  obtain ⟨hv, hi⟩ := hr.mbIdx_lt hf
  obtain ⟨hg, hline, -, hgeom, -⟩ := hf
  have hinside := (mbPos_inside hg _ hv hi).1
  rw [← hgeom] at hinside
  have hnodup := MbPlace.nodup_byteAddrs hline hinside
  have hperm := (List.subperm_of_subset hnodup (s.byteAddrs_subset_mbWritesWith idct vb field)).perm_of_length_le
    (by rw [List.length_map, s.length_mbWritesWith, MbPlace.length_byteAddrs])
  exact hperm.nodup_iff.1 hnodup

/-- Every byte that an MB_DECODE of a latched frame writes exists (R70, R81). -/
theorem State.mbWritesWith_lt_addrSpace (hf : s.HasFrame) (hr : s.Runs vb) :
    ∀ w ∈ s.mbWritesWith idct vb field, w.1 < Config.addrSpace := by
  obtain ⟨hspace, hbounds⟩ := writesStayInsideTheFrame s idct vb field hf hr
  exact fun w hw => (hbounds w hw).2.2.trans_le hspace

end

/-- With no address written twice, the order of a list of writes does not matter (R84). -/
theorem Memory.writeAll_perm {m : List Host.Cell} {ws ws' : List ByteAt} (hm : Memory.wf m = true) (hp : ws.Perm ws')
    (hn : (ws'.map Prod.fst).Nodup) (hlt : ∀ w ∈ ws', w.1 < Config.addrSpace) :
    Memory.writeAll m ws = Memory.writeAll m ws' := by
  refine Memory.ext (wf_writeAll hm fun w hw => hlt w (hp.subset hw)) (wf_writeAll hm hlt) fun a => ?_
  by_cases ha : ∃ w ∈ ws', w.1 = a
  · obtain ⟨⟨a, v⟩, hw, rfl⟩ := ha
    rw [Memory.read_writeAll_mem m hn hw, Memory.read_writeAll_mem m ((hp.map Prod.fst).nodup_iff.2 hn) (hp.symm.subset hw)]
  · have hother : ∀ w ∈ ws', w.1 ≠ a := fun w hw e => ha ⟨w, hw, e⟩
    rw [Memory.read_writeAll_other m hother, Memory.read_writeAll_other m fun w hw => hother w (hp.subset hw)]

end Sys2Proof.Machine
end

section
/-! SUPPORT. A macroblock command reads and writes no other context than its own (R201, R262): every part of its meaning
commutes with giving another context a value. -/

namespace Sys2Proof.Machine

/-- Giving a context a value, carried through an outcome. -/
def Outcome.setContext (o : Outcome) (w : Fin 4) (c : Context) : Outcome := o.onNext fun t => .next (t.setContext w c)

section
variable {s : State} {vb w : Fin 4} {c : Context} (hw : w ≠ vb)

/-- Two contexts may be set in either order. -/
theorem State.setContext_comm (s : State) {v w : Fin 4} (hvw : v ≠ w) (c c' : Context) :
    (s.setContext v c).setContext w c' = (s.setContext w c').setContext v c := by
  have hctx : (s.ctx.set v.val c).set w.val c' = (s.ctx.set w.val c').set v.val c :=
    Vector.set_comm _ _ fun e => hvw (Fin.ext e)
  simp only [State.setContext, hctx]

/-- Putting bytes into memory reads and writes no context (R72). -/
theorem State.putCommand_setContext (s : State) (w : Fin 4) (c : Context) (ws : List ByteAt) :
    (s.setContext w c).putCommand ws = Outcome.setContext (s.putCommand ws) w c := by
  have hmem (a : Nat) : (s.setContext w c).isMemory a = s.isMemory a := rfl
  have hlanding : (s.setContext w c).landing ws = s.landing ws := rfl
  simp only [State.putCommand, State.putBytes, hmem, hlanding]
  split <;> rfl

include hw

/-- The checks of a macroblock command read its own context only (R201, R262). -/
theorem State.ctxError?_setContext : (s.setContext w c).ctxError? vb = s.ctxError? vb := by
  simp only [State.ctxError?, State.context_setContext_other hw, State.setContext_fActive, State.setContext_geom]

/-- The bytes of an MB_DECODE depend on its own context only (R201). -/
theorem State.mbWritesWith_setContext (idct : Idct) (field : Bool) :
    (s.setContext w c).mbWritesWith idct vb field = s.mbWritesWith idct vb field := by
  have hcoef : (s.setContext w c).coefInt = s.coefInt := rfl
  simp only [State.mbWritesWith, State.context_setContext_other hw, hcoef, State.setContext_frame, State.setContext_geom]

/-- MB_DECODE commutes with giving another context a value (R201). -/
theorem execMbDecodeWith_setContext (idct : Idct) (field : Bool) :
    execMbDecodeWith idct vb field (s.setContext w c) = Outcome.setContext (execMbDecodeWith idct vb field s) w c := by
  have hready : (s.setContext w c).coefReady = s.coefReady := rfl
  simp only [execMbDecodeWith, State.ctxError?_setContext hw, State.mbWritesWith_setContext hw, hready,
    State.putCommand_setContext]
  split
  · rfl
  split
  · rfl
  cases s.putCommand (s.mbWritesWith idct vb field) with
  | fault r | refused r => rfl
  | next t =>
    simp only [Outcome.setContext, Outcome.onNext_next, State.context_setContext_other hw]
    exact congrArg (Host.Outcome.next <| State.autoClearCoef ·) (t.setContext_comm hw ..)

/-- MB_ABORT commutes with giving another context a value (R262). -/
theorem execMbAbort_setContext : execMbAbort vb (s.setContext w c) = Outcome.setContext (execMbAbort vb s) w c := by
  simp only [execMbAbort, State.ctxError?_setContext hw, State.context_setContext_other hw, s.setContext_comm hw]
  split <;> rfl

/-- A macroblock command leaves every other context (R201, R262). -/
theorem exec_keeps_context {i : Instr} {t : State} (hi : contextOf i = some vb) (h : exec i s = .next t) :
    t.context w = s.context w := by
  cases i with
  | mbDecode v field =>
    cases hi
    obtain ⟨e, -, rfl⟩ | ⟨-, -, -, n, rfl⟩ := execMbDecodeWith_cases h
    · rfl
    · exact State.context_setContext_other (s := { s with mem := _, draws := _ }) hw.symm
  | mbAbort v =>
    cases hi
    obtain ⟨e, -, rfl⟩ | ⟨-, rfl⟩ := execMbAbort_cases h
    · rfl
    · exact State.context_setContext_other (s := s) hw.symm
  | nop | frameStart | frameEnd => cases hi

end

end Sys2Proof.Machine
end

section
/-! The obligations on the macroblock commands (42_mb_decode.md, 44_frame_control.md, 20_memory.md). -/

namespace Sys2Proof.Machine

/-- Settles O29: the writes that land are among the command's, hold those that the host did not race for, and write no byte
twice. -/
theorem mbDecodeWritesExactlyItsBytes : Obligations.MbDecodeWritesExactlyItsBytes := by
  unfold Obligations.MbDecodeWritesExactlyItsBytes
  intro s idct vb field hf hr hc hb
  have hnodup := State.nodup_mbWritesWith idct field hf hr
  have hlands := s.landing_sublist (s.mbWritesWith idct vb field)
  obtain ⟨n, hexec⟩ := execMbDecodeWith_lands hr hc hb
  refine ⟨_, hexec, fun a ha => ?other, fun a v hv hraced => ?written, fun a v hv _ => ?raced⟩
  case other =>
    refine Memory.read_writeAll_other s.mem fun w hw e => ha w.2 ?_
    rw [← e]
    exact State.landing_subset hw
  case written => exact Memory.read_writeAll_mem s.mem (hnodup.sublist (hlands.map _)) (State.mem_landing_of_not_raced hv hraced)
  case raced =>
    obtain hold | ⟨v', hv', hnew⟩ := Memory.read_writeAll_cases s.mem (s.landing (s.mbWritesWith idct vb field)) a
    · exact .inr hold
    · have hsame := List.inj_on_of_nodup_map hnodup (State.landing_subset hv') hv rfl
      cases hsame
      exact .inl hnew

/-- Settles O39: the addresses are the bytes of the macroblock's pixels, each once. -/
theorem writeOrderWithinACommandDoesNotMatter : Obligations.WriteOrderWithinACommandDoesNotMatter := by
  unfold Obligations.WriteOrderWithinACommandDoesNotMatter
  intro s idct vb field m ws hf hr hm hp
  have hnodup := State.nodup_mbWritesWith idct field hf hr
  exact ⟨hnodup, Memory.writeAll_perm hm hp hnodup (State.mbWritesWith_lt_addrSpace idct field hf hr)⟩

/-- Settles O28: with no race every write lands. -/
theorem mbDecodePlacesOneMacroblock : Obligations.MbDecodePlacesOneMacroblock := by
  unfold Obligations.MbDecodePlacesOneMacroblock
  exact fun s vb field hr hc hb hraced => execMbDecodeWith_of_runs hraced hr hc hb

/-- Settles O30: both meanings commute with giving another context a value, and leave it. -/
theorem macroblockCommandsIgnoreOtherContexts : Obligations.MacroblockCommandsIgnoreOtherContexts := by
  unfold Obligations.MacroblockCommandsIgnoreOtherContexts
  rintro s vb w c field i hw (rfl | rfl)
  · exact ⟨execMbDecodeWith_setContext hw Config.idct field, fun t => exec_keeps_context hw rfl⟩
  · exact ⟨execMbAbort_setContext hw, fun t => exec_keeps_context hw rfl⟩

/-- Settles O27: the error that each check finds, and that the command records it and ends. -/
theorem macroblockCommandsCheckInOrder : Obligations.MacroblockCommandsCheckInOrder := by
  unfold Obligations.MacroblockCommandsCheckInOrder
  intro s vb field i hi
  have hctx : contextOf i = some vb := by obtain rfl | rfl := hi <;> rfl
  exact ⟨fun hf => exec_of_ctxError hctx (State.ctxError?_noFrame hf),
    fun hf hv => exec_of_ctxError hctx (State.ctxError?_vbRange hf hv),
    fun hf hv hc => exec_of_ctxError hctx (State.ctxError?_vbFailed hf hv hc),
    fun hf hv hc => exec_of_ctxError hctx (State.ctxError?_vbDone hf hv hc)⟩

/-- Settles O31: an MB_DECODE reads the whole coefficient RAM before it writes, and with no race every write lands. -/
theorem mbDecodeStopsOutsideTheSpec : Obligations.MbDecodeStopsOutsideTheSpec := by
  unfold Obligations.MbDecodeStopsOutsideTheSpec
  refine ⟨fun s vb field n hr hn hentry => execMbDecodeWith_of_unwritten hr fun hc => hc n hn hentry,
    fun s vb field a v hr hc hraced hw hm => ?_⟩
  exact execMbDecodeWith_of_unbacked (w := (a, v)) hr hc (by rwa [State.landing_of_no_race hraced]) hm

/-- Settles O46: an MB_ABORT that passes its checks. -/
theorem mbAbortFailsItsContext : Obligations.MbAbortFailsItsContext := by
  unfold Obligations.MbAbortFailsItsContext
  exact fun s vb hr => execMbAbort_of_runs hr

end Sys2Proof.Machine
end

section
/-! SUPPORT. What an MB_DECODE without races leaves at the bytes of its macroblock, for blocks that hold a DC coefficient only
(R204, R215). -/

namespace Sys2Proof.Machine

/-- With no race, every byte that an MB_DECODE of a latched frame writes is found in memory when it completes (R201). -/
theorem read_of_mem_mbWritesWith {s t : State} {idct : Idct} {vb : Fin 4} {field : Bool} (hf : s.HasFrame) (hr : s.Runs vb)
    (hraced : s.raced = []) (h : execMbDecodeWith idct vb field s = .next t) {a : Nat} {v : Byte}
    (hw : (a, v) ∈ s.mbWritesWith idct vb field) : Memory.read t.mem a = some v := by
  obtain ⟨hc, hb⟩ := execMbDecodeWith_next_of_runs hraced hr h
  rw [execMbDecodeWith_of_runs hraced hr hc hb] at h
  cases h
  exact Memory.read_writeAll_mem s.mem (State.nodup_mbWritesWith idct field hf hr) hw

/-- A block whose coefficients are `d` at entry 0 and 0 elsewhere shows the transform's constant for `d` (R204, R215). -/
theorem samplesOf_of_dcOnly {idct : Idct} {coef : Nat → Int} {k : Nat} {d : Int} {v : Fin 256}
    (hcoef : ∀ n, n < 64 → coef (64 * k + n) = if n = 0 then d else 0) (hv : IdctDcValue idct d v) (m : Nat) :
    samplesOf idct coef k m = BitVec.ofNat 8 v.val := by
  have hblock : (fun n : Fin 64 => coef (64 * k + n.val)) = dcOnly d := by
    funext n
    rw [hcoef n.val n.isLt, dcOnly]
    exact if_congr Fin.val_eq_zero_iff rfl rfl
  rw [samplesOf, hblock, hv]

/-- What holds where every luma sample lands holds at every pixel (R211). -/
theorem forall_pixel_of_forall_luma {reg : Regime} {P : Nat → Nat → Prop}
    (h : ∀ k r c, k < 4 → r < 8 → c < 8 → P (lumaXY reg k r c).1 (lumaXY reg k r c).2) :
    ∀ dx dy, dx < reg.width → dy < reg.height → P dx dy := by
  intro dx dy hx hy
  obtain ⟨k, r, c, hk, hr, hc, hxy⟩ := lumaXY_surj hx hy
  simpa only [hxy] using h k r c hk hr hc

/-- What holds where every sample of a chroma component lands holds at every chroma column and line (R211). -/
theorem forall_pair_of_forall_chroma {reg : Regime} {P : Nat → Nat → Prop}
    (h : ∀ j r c, j < 2 → r < 8 → c < 8 → P (chromaXY reg j r c).1 (chromaXY reg j r c).2) :
    ∀ dxc dy, 2 * dxc < reg.width → dy < reg.height → P dxc dy := by
  intro dxc dy hx hy
  obtain ⟨j, r, c, hj, hr, hc, hxy⟩ := chromaXY_surj hx hy
  simpa only [hxy] using h j r c hj hr hc

end Sys2Proof.Machine
end

section
/-! The obligation on constant blocks (42_mb_decode.md). -/

namespace Sys2Proof.Machine

/-- Settles O40: every write is found in memory with its block's constant, and the samples reach every pixel. -/
theorem constantDcBlocksFillTheirPixels : Obligations.ConstantDcBlocksFillTheirPixels := by
  unfold Obligations.ConstantDcBlocksFillTheirPixels
  intro s t idct vb field d v hf hr hraced hfmt hcoef hv h _ m reg
  have hwrites : s.mbWritesWith idct vb field = yuvWrites s.frame reg m.x0 m.y0 (samplesOf idct s.coefInt) := by
    simp only [State.mbWritesWith, hfmt]
    rfl
  have hread {a k i : Nat} (hk : k < 8)
      (ha : (a, samplesOf idct s.coefInt k i) ∈ yuvWrites s.frame reg m.x0 m.y0 (samplesOf idct s.coefInt)) :
      Memory.read t.mem a = some (BitVec.ofNat 8 (v k).val) := by
    rw [read_of_mem_mbWritesWith hf hr hraced h (hwrites ▸ ha), samplesOf_of_dcOnly (fun n => hcoef k n hk) (hv k hk)]
  have hluma (k r c : Nat) (hk : k < 4) (hr : r < 8) (hc : c < 8) :=
    hread (by omega) (List.mem_append_left _ (mem_lumaWrites.2 ⟨k, r, c, hk, hr, hc, rfl⟩))
  have hcb (j r c : Nat) (hj : j < 2) (hr : r < 8) (hc : c < 8) :=
    hread (by omega) (List.mem_append_right _ (mem_chromaWrites.2 ⟨j, r, c, hj, hr, hc, .inl rfl⟩))
  have hcr (j r c : Nat) (hj : j < 2) (hr : r < 8) (hc : c < 8) :=
    hread (by omega) (List.mem_append_right _ (mem_chromaWrites.2 ⟨j, r, c, hj, hr, hc, .inr rfl⟩))
  refine ⟨hluma, fun j r c hj hr hc => ⟨hcb j r c hj hr hc, hcr j r c hj hr hc⟩, fun h1 h2 h3 => ?luma, fun h7 => ?cb,
    fun h5 => ?cr⟩
  case luma =>
    have hsame : ∀ k < 4, v 0 = v k
      | 0, _ => rfl
      | 1, _ => h1
      | 2, _ => h2
      | 3, _ => h3
    exact forall_pixel_of_forall_luma fun k r c hk hr hc => hsame k hk ▸ hluma k r c hk hr hc
  case cb =>
    have hsame : ∀ j < 2, v 6 = v (6 + j)
      | 0, _ => rfl
      | 1, _ => h7
    exact forall_pair_of_forall_chroma fun j r c hj hr hc => hsame j hj ▸ hcb j r c hj hr hc
  case cr =>
    have hsame : ∀ j < 2, v 4 = v (4 + j)
      | 0, _ => rfl
      | 1, _ => h5
    exact forall_pair_of_forall_chroma fun j r c hj hr hc => hsame j hj ▸ hcr j r c hj hr hc

end Sys2Proof.Machine
end

section
/-! SUPPORT. The reference transform of a DC-only block (R204, R205). -/

namespace Sys2Proof.Machine

/-- A DC-only block by row and column (R204, R205). -/
theorem dcOnly_block (d : Int) (q p : Fin 8) :
    dcOnly d (Fin.ofNat 64 (8 * q.val + p.val)) = if q = 0 ∧ p = 0 then d else 0 := by
  have hzero : ∀ q p : Fin 8, Fin.ofNat 64 (8 * q.val + p.val) = 0 ↔ q = 0 ∧ p = 0 := by decide
  exact if_congr (hzero q p) rfl rfl

/-- The orthonormal inverse transform of a DC-only block is `d / 8` at every position: of its 64 terms one is not 0, and that
one's scale is `1/2` (R205). -/
theorem idctReal_dcOnly (d : Int) (r c : Nat) : idctReal (dcOnly d) r c = d / 8 := by
  have hscale : dctScale 0 * dctScale 0 = 1 / 2 := by
    rw [dctScale, if_pos rfl, ← mul_div_mul_comm, Real.mul_self_sqrt (by norm_num), one_mul]
  simp only [idctReal, dcOnly_block]
  rw [Fintype.sum_eq_single 0 ?otherRows, Fintype.sum_eq_single 0 ?otherColumns]
  case otherRows => exact fun q hq => Finset.sum_eq_zero fun p _ => by simp [hq]
  case otherColumns => exact fun p hp => by simp [hp]
  simp [hscale]
  ring

/-- A value clamped to a byte fits in it. -/
theorem val_ofNat_clamp (x : Int) : ((Fin.ofNat 256 (min (max x 0) 255).toNat).val : Int) = min (max x 0) 255 := by
  rw [Fin.val_ofNat]
  omega

end Sys2Proof.Machine
end

section
/-! The obligations on the reference transform and the XRGB writer (42_mb_decode.md, 43_xrgb.md). -/

namespace Sys2Proof.Machine

/-- Settles O41: the transform of a DC-only block before its rounding, and the clamp fits a byte. -/
theorem referenceTransformOfADcBlock : Obligations.ReferenceTransformOfADcBlock := by
  unfold Obligations.ReferenceTransformOfADcBlock
  intro d m
  rw [idctRef, idctReal_dcOnly, val_ofNat_clamp]

/-- Settles O42: the writes pixel by pixel, four for each. -/
theorem xrgbWritesFourBytesPerPixel : Obligations.XrgbWritesFourBytesPerPixel := by
  unfold Obligations.XrgbWritesFourBytesPerPixel
  exact fun f reg x0 y0 smp => ⟨fun w => mem_xrgbWrites, length_xrgbWrites f reg x0 y0 smp⟩

end Sys2Proof.Machine
end

section
/-! SUPPORT. The error record (R303), FRAME_END (R264), and that no command is refused (R138). -/

namespace Sys2Proof.Machine

/-! ## The error record -/

/-- Code 0 is no error (R300). -/
theorem ErrCode.code_eq_zero_iff (e : ErrCode) : e.code = 0 ↔ e = .none := by
  cases e <;> decide

section
variable {s : State}

/-- The first error is recorded (R303). -/
theorem State.recordError_of_none (h : s.errCode = .none) (code : ErrCode) (vb : BitVec 2) (mb : Word) :
    s.recordError code vb mb = { s with errCode := code, errVb := vb, errMb := mb, intStatus := s.intStatus ||| intErr } := by
  simp only [State.recordError, if_pos h]

/-- An error after the first sets INT_STATUS.ERR only (R303). -/
theorem State.recordError_of_some (h : s.errCode ≠ .none) (code : ErrCode) (vb : BitVec 2) (mb : Word) :
    s.recordError code vb mb = { s with intStatus := s.intStatus ||| intErr } := by
  simp only [State.recordError, if_neg h]

/-- The error record is the same in both states (R36, R37). -/
structure State.SameRecord (s t : State) : Prop where
  errCode : t.errCode = s.errCode
  errVb : t.errVb = s.errVb
  errMb : t.errMb = s.errMb

/-- Recording an error keeps a record that holds one (R303). -/
theorem State.sameRecord_recordError (h : s.errCode ≠ .none) (code : ErrCode) (vb : BitVec 2) (mb : Word) :
    s.SameRecord (s.recordError code vb mb) := by
  rw [State.recordError_of_some h]
  exact ⟨rfl, rfl, rfl⟩

/-- A command but FRAME_START keeps a record that holds an error (R303). -/
theorem exec_sameRecord {i : Instr} {t : State} (h : exec i s = .next t) (hi : i ≠ .frameStart) (he : s.errCode ≠ .none) :
    s.SameRecord t := by
  cases i with
  | nop => cases h; exact ⟨rfl, rfl, rfl⟩
  | frameStart => exact absurd rfl hi
  | mbDecode vb field =>
    obtain ⟨e, -, rfl⟩ | ⟨-, -, -, n, rfl⟩ := execMbDecodeWith_cases h
    · exact State.sameRecord_recordError he ..
    · exact ⟨rfl, rfl, rfl⟩
  | mbAbort vb =>
    obtain ⟨e, -, rfl⟩ | ⟨-, rfl⟩ := execMbAbort_cases h
    · exact State.sameRecord_recordError he ..
    · obtain ⟨hcode, hvb, hmb⟩ := State.sameRecord_recordError
        (s := s.setContext vb { s.context vb with state := .failed }) he .bitstream (BitVec.ofNat 2 vb.val) (s.context vb).mbIdx
      exact ⟨hcode, hvb, hmb⟩
  | frameEnd =>
    obtain ⟨-, rfl⟩ | ⟨-, -, rfl⟩ | ⟨v, -, -, rfl⟩ := execFrameEnd_cases h
    · exact State.sameRecord_recordError he ..
    · exact ⟨rfl, rfl, rfl⟩
    · obtain ⟨hcode, hvb, hmb⟩ := State.sameRecord_recordError (s := { s with fActive := false }) he .incomplete
        (BitVec.ofNat 2 v.val) (s.context v).mbIdx
      exact ⟨hcode, hvb, hmb⟩

/-! ## FRAME_END -/

/-- The context that FRAME_END reports is the least one of the frame that is RUN (R264, R265). -/
theorem State.leastRunning?_eq_some_iff {v : Fin 4} :
    s.leastRunning? = some v ↔ (v.val < s.geom.vbc ∧ (s.context v).state = .run)
      ∧ ∀ w : Fin 4, w < v → w.val < s.geom.vbc → (s.context w).state ≠ .run := by
  rw [State.leastRunning?, ← Fin.find?_eq_find?_finRange, Fin.find?_eq_some_iff]
  simp

/-- FRAME_END reports no context exactly when none of the frame is RUN (R264). -/
theorem State.leastRunning?_eq_none_iff :
    s.leastRunning? = none ↔ ∀ v : Fin 4, v.val < s.geom.vbc → (s.context v).state ≠ .run := by
  simp [State.leastRunning?]

/-- FRAME_END with no frame active raises NO_FRAME (R264). -/
theorem execFrameEnd_of_inactive (hf : s.fActive = false) : execFrameEnd s = .next (s.recordError .noFrame 0 0) :=
  if_pos hf

/-- FRAME_END ends a frame with no context RUN (R264). -/
theorem execFrameEnd_of_finished (hf : s.fActive = true) (h : s.leastRunning? = none) :
    execFrameEnd s = .next { s with fActive := false } := by
  simp only [execFrameEnd, hf, h, Bool.true_eq_false, if_false]

/-- FRAME_END ends a frame with a context RUN and signals INCOMPLETE for the least one (R264). -/
theorem execFrameEnd_of_unfinished {v : Fin 4} (hf : s.fActive = true) (h : s.leastRunning? = some v) :
    execFrameEnd s = .next (({ s with fActive := false } : State).recordError .incomplete (BitVec.ofNat 2 v.val)
      (s.context v).mbIdx) := by
  simp only [execFrameEnd, hf, h, Bool.true_eq_false, if_false]

/-! ## The lifecycle -/

/-- The datapath does nothing while BUSY = 0 (R130, R325). -/
theorem datapathStep_of_idle (h : s.busy = false) : datapathStep s = .next s :=
  if_neg (by simp [h])


/-- An outcome that goes on without a refusal is refused only where it was. -/
theorem Outcome.onNext_next_ne_refused {o : Outcome} {f : State → State} {r : Refusal} (ho : o ≠ .refused r) :
    o.onNext (fun t => .next (f t)) ≠ .refused r := by
  cases o with
  | next t | fault e => exact nofun
  | refused r' => exact ho

/-- Putting bytes into memory is not refused (R72). -/
theorem State.putBytes_ne_refused (s : State) (ws : List ByteAt) (n : Nat) (r : Refusal) : s.putBytes ws n ≠ .refused r := by
  unfold State.putBytes
  split <;> exact nofun

/-- No command is refused: each has its meaning (R103, R139). -/
theorem exec_ne_refused (i : Instr) (s : State) (r : Refusal) : exec i s ≠ .refused r := by
  cases i with
  | nop => exact nofun
  | frameStart =>
    simp only [exec, execFrameStart, State.raise]
    split
    · exact nofun
    split <;> exact nofun
  | mbDecode vb field =>
    simp only [exec, execMbDecode, execMbDecodeWith, State.raise]
    split
    · exact nofun
    split
    · exact nofun
    · exact Outcome.onNext_next_ne_refused (State.putBytes_ne_refused _ _ _ r)
  | mbAbort vb =>
    simp only [exec, execMbAbort, State.raise]
    split <;> exact nofun
  | frameEnd =>
    simp only [exec, execFrameEnd, State.raise]
    split
    · exact nofun
    split <;> exact nofun

end

end Sys2Proof.Machine
end

section
/-! The obligations on FRAME_END, the error record and the command lifecycle (44_frame_control.md, 60_exceptions.md,
40_host_access.md). -/

namespace Sys2Proof.Machine

/-- Settles O47: FRAME_END by whether a frame is active and whether a context is RUN. -/
theorem frameEndReportsTheLeastUnfinishedContext : Obligations.FrameEndReportsTheLeastUnfinishedContext := by
  unfold Obligations.FrameEndReportsTheLeastUnfinishedContext
  intro s
  refine ⟨execFrameEnd_of_inactive, fun hf hall => execFrameEnd_of_finished hf (State.leastRunning?_eq_none_iff.2 hall),
    fun hf v hv hrun hleast => ?_⟩
  exact execFrameEnd_of_unfinished hf (State.leastRunning?_eq_some_iff.2 ⟨⟨hv, hrun⟩, fun w hw _ => hleast w hw⟩)

/-- Settles O49: recording by whether an error is recorded, and each command by its cases. -/
theorem onlyTheFirstErrorIsRecorded : Obligations.OnlyTheFirstErrorIsRecorded := by
  unfold Obligations.OnlyTheFirstErrorIsRecorded
  refine ⟨fun s code vb mb => ?_, fun i s t h hi he => ?_⟩
  · rw [ne_eq, ErrCode.code_eq_zero_iff]
    exact ⟨fun h => State.recordError_of_none h code vb mb, fun h => State.recordError_of_some h code vb mb⟩
  · obtain ⟨hcode, hvb, hmb⟩ := exec_sameRecord h hi he
    exact ⟨hcode, hvb, hmb⟩

/-- Settles O5: a completion executes the accepted command and completes, and no command is refused. -/
theorem stepRunsTheAcceptedCommand : Obligations.StepRunsTheAcceptedCommand := by
  unfold Obligations.StepRunsTheAcceptedCommand
  refine ⟨fun s rest i hbusy hin hdec => ?step, fun s t i h => ?fetch⟩
  case step =>
    have hstep : step s = Outcome.onNext (exec i (s.withInputs rest)) fun t => .next t.complete :=
      (step_of_datapath hin hbusy).trans (completionStep_of_command (s := s.withInputs rest) hdec)
    rw [hstep]
    exact ⟨fun t ht => by rw [ht]; rfl, fun f hf => by rw [hf]; rfl,
      fun r => ⟨exec_ne_refused i _ r, Outcome.onNext_next_ne_refused (exec_ne_refused i _ r)⟩⟩
  case fetch =>
    have hword : BitVec.ofNat 32 ((encode i).toNat % 2 ^ 32) = encode i := by
      rw [Nat.mod_eq_of_lt (encode i).isLt, BitVec.ofNat_toNat, BitVec.setWidth_eq]
    have hstep : step (s.withFetchWord 32 (encode i).toNat) = completionStep ((s.accept (encode i)).withInputs s.inputs) := by
      rw [State.withFetchWord, hword]
      rfl
    rw [hstep, completionStep_of_command (s := (s.accept (encode i)).withInputs s.inputs) (decode_encode i), h]
    rfl

/-- Settles O6: the datapath's turn by the cases of BUSY. -/
theorem datapathIsIdleUnlessBusy : Obligations.DatapathIsIdleUnlessBusy := by
  unfold Obligations.DatapathIsIdleUnlessBusy
  intro s
  refine ⟨fun hb hin => ?empty, fun hb rest hin => ?idle, fun _ hin => ?turn⟩
  case empty =>
    calc step s
      _ = datapathStep s := by simp only [step, hin]
      _ = .next s := datapathStep_of_idle hb
  case idle =>
    calc step s
      _ = datapathStep (s.withInputs rest) := by simp only [step, hin]
      _ = .next (s.withInputs rest) := datapathStep_of_idle hb
  case turn =>
    have hself : s.withInputs [] = s := hin ▸ rfl
    calc step s
      _ = datapathStep s := by simp only [step, hin]
      _ = datapathStep (s.withInputs []) := by rw [hself]

end Sys2Proof.Machine
end

section
/-! SUPPORT. The words that registers read, field by field (R24 to R46), how a read of a register runs as a step (R131), and
what a host load answers (R85). -/

namespace Sys2Proof.Machine

/-! ## Register words -/

/-- A word of two fields reads the low one from bit 0 and the high one above it. -/
theorem extractLsb'_append_fields {n m : Nat} (hi : BitVec n) (lo : BitVec m) :
    (hi ++ lo).extractLsb' 0 m = lo ∧ (hi ++ lo).extractLsb' m n = hi := by
  rw [BitVec.extractLsb'_append_eq_of_add_le (Nat.zero_add m).le, BitVec.extractLsb'_append_eq_of_le le_rfl, Nat.sub_self]
  exact ⟨BitVec.extractLsb'_eq_self, BitVec.extractLsb'_eq_self⟩

/-- CTRL reads AUTO_CLEAR in bit 1 and 0 elsewhere (R25). -/
theorem State.ctrl_fields (s : State) :
    s.ctrl.getLsbD 0 = false ∧ s.ctrl.getLsbD 1 = s.autoClear ∧ s.ctrl.extractLsb' 2 30 = 0 := by
  unfold State.ctrl
  cases s.autoClear <;> decide

/-- CTRL reads 2 or 0 (R25). -/
theorem State.ctrl_toNat (s : State) : s.ctrl.toNat = if s.autoClear = true then 2 else 0 := by
  unfold State.ctrl
  cases s.autoClear <;> decide

/-- ERR_INFO reads the recorded code and video block (R36, R300). -/
theorem State.errInfo_fields (s : State) :
    s.errInfo.extractLsb' 0 8 = s.errCode.code ∧ s.errInfo.extractLsb' 8 2 = s.errVb ∧ s.errInfo.extractLsb' 10 22 = 0 := by
  simp (disch := decide) only [State.errInfo, BitVec.extractLsb'_append_eq_of_le, BitVec.extractLsb'_append_eq_of_add_le]
  exact ⟨BitVec.extractLsb'_eq_self, BitVec.extractLsb'_eq_self, by decide⟩

/-! ## Reading a register -/

/-- `RD32` of a register's offset answers its word and draws what an unwritten coefficient needs (R130, R131). -/
theorem step_of_read {s : State} (r : Reg) {rest : List Input} (h : s.inputs = .host (.read .word r.offset) :: rest) :
    step s = .next { s with inputs := rest, response := .word (readReg s r), draws := s.draws + readDraws s r } := by
  rw [step_of_windowRead r.offset_lt_mmioSize r.offset_mod_four h, readWindow, regAt?_offset]
  cases r <;> rfl

/-- A written entry is written (R54). -/
theorem CoefEntry.isWritten_iff (e : CoefEntry) : e.isWritten = true ↔ e ≠ .unwritten := by
  cases e with
  | unwritten => exact iff_of_false nofun fun h => h rfl
  | written v => exact iff_of_true rfl nofun

/-- A read of a COEF word with both halves written draws nothing (R131). -/
theorem readDraws_coef {s : State} {j : Fin 256} (hlo : s.coefEntry (2 * j.val) ≠ .unwritten)
    (hhi : s.coefEntry (2 * j.val + 1) ≠ .unwritten) : readDraws s (.coef j) = 0 := by
  simp only [readDraws, (CoefEntry.isWritten_iff _).2 hlo, (CoefEntry.isWritten_iff _).2 hhi, Bool.and_self, if_true]

/-- A read of any other register draws nothing (R131). -/
theorem readDraws_of_not_coef (s : State) {r : Reg} (h : ∀ j : Fin 256, r ≠ .coef j) : readDraws s r = 0 := by
  cases r with
  | coef j => exact absurd rfl (h j)
  | _ => rfl

/-- With every coefficient written no read draws (R131). -/
theorem readDraws_of_coefWritten {s : State} (h : s.CoefWritten) (r : Reg) : readDraws s r = 0 := by
  cases r with
  | coef j => exact readDraws_coef (h _ (by omega)) (h _ (by omega))
  | _ => rfl

/-- A COEF word reads its two written halves (R46). -/
theorem readReg_coef {s : State} {j : Fin 256} {lo hi : Half} (hlo : s.coefEntry (2 * j.val) = .written lo)
    (hhi : s.coefEntry (2 * j.val + 1) = .written hi) : readReg s (.coef j) = hi ++ lo := by
  simp only [readReg, State.coefBits, hlo, hhi]

/-! ## Loading a byte -/

/-- A host load of ordinary memory answers the byte that is there or the one the command in flight writes there (R85). -/
theorem loadedByte_cases (s : State) (a : Nat) :
    loadedByte s a = Memory.byte s.mem a ∨ (a, loadedByte s a) ∈ s.pendingWrites := by
  unfold loadedByte
  split
  · next v hv =>
    split
    · exact .inr (Memory.read_mem hv)
    · exact .inl rfl
  · exact .inl rfl

end Sys2Proof.Machine
end

section
/-! SUPPORT. What `LDBLK` leaves in the coefficient RAM (R109). -/

namespace Sys2Proof.Machine

/-- Host operations run one after the other, and so do two lists of them (R130). -/
theorem State.runHost_append (s : State) (l l' : List HostOp) :
    s.runHost (l ++ l') = (s.runHost l).onNext fun t => t.runHost l' := by
  induction l generalizing s with
  | nil => rfl
  | cons op l ih =>
    simp only [List.cons_append, State.runHost]
    cases hostStep s op with
    | next t => exact ih t
    | fault r | refused r => rfl

/-- On an idle block `WR32` of COEF word `j` stores it (R130, R136). -/
theorem hostStep_coefWrite {s : State} {j : Nat} (hj : j < 256) (hb : s.busy = false) (d : Word) :
    hostStep s (wr32 (0x400 + 4 * j) d) = .next (s.storeCoefWord j d) := by
  have hoff : 0x400 + 4 * j = (Reg.coef ⟨j, hj⟩).offset := rfl
  rw [hoff, wr32, hostStep, windowAccess_word _ (Reg.offset_lt_mmioSize _) (Reg.offset_mod_four _), writeWindow, regAt?_offset]
  exact congrArg Host.Outcome.next (writeCoef_of_idle hb j d)

/-- The first `2m` entries of block `k` are loaded, and nothing else has changed. -/
structure State.Loaded (s : State) (k : Nat) (c : Nat → Half) (m : Nat) (t : State) : Prop where
  frame : t = { s with coef := t.coef }
  loaded : ∀ n, n < 2 * m → t.coefEntry (64 * k + n) = .written (c n)
  other : ∀ n, n < 64 * k ∨ 64 * k + 2 * m ≤ n → t.coefEntry n = s.coefEntry n

/-- One more word loads two more entries (R46, R109). -/
theorem State.Loaded.storeCoefWord {s t : State} {k m : Nat} {c : Nat → Half} (h : s.Loaded k c m t) (hj : 32 * k + m < 256) :
    s.Loaded k c (m + 1) (t.storeCoefWord (32 * k + m) (c (2 * m + 1) ++ c (2 * m))) where
  frame := by rw [h.frame]; rfl
  loaded n hn := by
    obtain ⟨hlo, hhi⟩ := extractLsb'_append_fields (c (2 * m + 1)) (c (2 * m))
    rw [State.coefEntry_storeCoefWord t _ hj, hlo, hhi]
    split
    · obtain rfl : n = 2 * m + 1 := by omega
      rfl
    split
    · obtain rfl : n = 2 * m := by omega
      rfl
    · exact h.loaded n (by omega)
  other n hn := by
    rw [State.coefEntry_storeCoefWord t _ hj, if_neg (by omega), if_neg (by omega)]
    exact h.other n (by omega)

/-- The first `m` writes of LDBLK on an idle block load the first `2m` entries of the block (R109). -/
theorem State.runHost_ldblk {s : State} {k : Nat} (c : Nat → Half) (hk : k < 8) (hb : s.busy = false) {m : Nat} (hm : m ≤ 32) :
    ∃ t, s.runHost ((List.range m).map fun j => wr32 (0x400 + 128 * k + 4 * j) (c (2 * j + 1) ++ c (2 * j))) = .next t
      ∧ s.Loaded k c m t := by
  induction m with
  | zero => exact ⟨s, rfl, rfl, nofun, fun _ _ => rfl⟩
  | succ m ih =>
    obtain ⟨t, ht, hload⟩ := ih (by omega)
    have hidle : t.busy = false := by rw [hload.frame]; exact hb
    have hoff : 0x400 + 128 * k + 4 * m = 0x400 + 4 * (32 * k + m) := by omega
    refine ⟨_, ?_, hload.storeCoefWord (by omega)⟩
    rw [List.range_succ, List.map_append, State.runHost_append, ht, Outcome.onNext_next, List.map_singleton, hoff, State.runHost,
      hostStep_coefWrite (by omega) hidle]
    rfl

end Sys2Proof.Machine
end

section
/-! The obligations on register reads, the host's stores and loads, the resets and host programs (10_state.md, 20_memory.md,
30_encoding.md, 40_host_access.md, 70_reset_and_hazards.md). -/

namespace Sys2Proof.Machine

/-- Settles O9: the step that reads a register, and each word by its fields. -/
theorem registerReadChangesNothing : Obligations.RegisterReadChangesNothing := by
  unfold Obligations.RegisterReadChangesNothing
  refine ⟨fun s r rest h => ⟨readDraws s r, step_of_read r h, fun hc => readDraws_of_coefWritten hc r,
    readDraws_of_not_coef s, ?coef⟩, fun s => ?fields, by decide⟩
  case coef =>
    rintro j rfl lo hi hlo hhi
    exact ⟨readDraws_coef (by simp [hlo]) (by simp [hhi]), readReg_coef hlo hhi⟩
  case fields =>
    have hpad (v : Fin 4) := extractLsb'_append_fields (s.context v).padY (s.context v).padX
    exact ⟨rfl, s.ctrl_fields, extractLsb'_append_fields 0#29 s.intStatus, extractLsb'_append_fields 0#29 s.intEnable, rfl,
      extractLsb'_append_fields 0#30 s.cfg.frameMode, rfl, rfl, rfl, rfl, s.errInfo_fields, rfl, fun v => ⟨rfl, rfl, hpad v⟩,
      extractLsb'_append_fields 0#29 (BitVec.ofNat 3 s.geom.vbc), rfl, rfl, rfl, rfl⟩

/-- Settles O10: the table by definition, and the lookup of a register's offset both ways. -/
theorem registerMapIsExact : Obligations.RegisterMapIsExact := by
  unfold Obligations.RegisterMapIsExact
  refine ⟨?table, fun r => ⟨regAt?_offset r, r.offset_mod_four, r.offset_lt_mmioSize⟩, fun o r => Reg.offset_of_regAt?⟩
  case table => simp only [Reg.offset, and_self, implies_true]

/-- Settles O53: the write of CTRL, and the word that CTRL then reads. -/
theorem controlWriteSetsAutoClear : Obligations.ControlWriteSetsAutoClear := by
  unfold Obligations.ControlWriteSetsAutoClear
  intro s d rest hin hd
  refine ⟨?_, State.ctrl_toNat _⟩
  rw [step_of_write .ctrl hin, writeReg, writeCtrl, if_neg (ne_true_of_eq_false hd)]
  rfl

/-- Settles O54: the loaded byte is the old one or a byte to come. -/
theorem racingLoadSeesOldOrNew : Obligations.RacingLoadSeesOldOrNew := by
  unfold Obligations.RacingLoadSeesOldOrNew
  intro s a rest hin hm
  have hmem : (s.withInputs rest).isMemory a.toNat = true := hm
  have hstep : step s = .next (((s.withInputs rest).respond (.byte (loadedByte (s.withInputs rest) a.toNat))).spend
      (if (s.withInputs rest).busy then Config.coefN else 0)) := by
    rw [step_of_host hin, hostStep, hostLoad, if_pos hmem]
  exact ⟨_, _, hstep, rfl, loadedByte_cases (s.withInputs rest) a.toNat⟩

/-- Settles O55: a read after one write. -/
theorem hostStoreWritesOneByte : Obligations.HostStoreWritesOneByte := by
  unfold Obligations.HostStoreWritesOneByte
  intro s a v rest hin hm
  have hmem : (s.withInputs rest).isMemory a.toNat = true := hm
  refine ⟨{ s with
    inputs := rest, mem := Memory.write s.mem a.toNat v, raced := if s.busy then a.toNat :: s.raced else s.raced }, ?_, rfl,
    Memory.read_write_same .., fun b hb => Memory.read_write_other hb.symm, fun hb => ?_, fun hb => ?_⟩
  · rw [step_of_host hin, hostStep, hostStore, if_pos hmem]
    rfl
  · simp [hb]
  · simp [hb]

/-- Settles O51: a power-on aborts the command in flight, which touches memory only, and then resets the block. -/
theorem powerOnEntersTheResetState : Obligations.PowerOnEntersTheResetState := by
  unfold Obligations.PowerOnEntersTheResetState
  refine ⟨State.reset.blockIsReset_resetBlock .unwritten, rfl, fun s rest hin hmem => ?_⟩
  obtain ⟨m, n, habort, hidle, hread⟩ := State.abortInFlight_of_memory (s := s.withInputs rest) hmem
  have hstep : step s = .next (State.resetBlock { s.withInputs rest with mem := m, draws := n }
      (Vector.replicate 512 .unwritten)) := by
    simp only [step, hin, State.powerOn, habort, Outcome.onNext_next]
  exact ⟨_, hstep, State.blockIsReset_resetBlock _ _, rfl, rfl, hidle, hread⟩

/-- Settles O60: LDBLK is 32 writes of COEF words, each of which loads two entries. -/
theorem loadBlockFillsOneBlock : Obligations.LoadBlockFillsOneBlock := by
  unfold Obligations.LoadBlockFillsOneBlock
  intro s k c hk hb
  obtain ⟨t, ht, hload⟩ := State.runHost_ldblk c hk hb (le_refl 32)
  exact ⟨t, ht, hload.frame, hload.loaded, hload.other⟩

end Sys2Proof.Machine
end
